-- ==== Sys2Proof/Word.lean ====
section
/-! DEFINITION. Bytes and machine words: the plainest types every other file shares. -/

namespace Sys2Proof

/-- One byte of a frame, a packet, a dictionary value or a record. -/
abbrev Byte := BitVec 8

/-- A U16 of the manual (an index, an address, a tag). -/
abbrev Half := BitVec 16

/-- A U32 of the manual. -/
abbrev Word := BitVec 32

/-- A TICK64 of the manual: a station clock value (R52). -/
abbrev Tick64 := BitVec 64

/-- Ticks in one microsecond-scale unit the manual names: 1 ms is 491,520 ticks (R3). -/
def ticksPerMs : Nat := 491520

/-- One second is 491,520,000 ticks (R3). -/
def ticksPerSecond : Nat := 491520000

end Sys2Proof
end

