-- ==== Sys2Proof/Syntax.lean ====
section
/-! DEFINITION. The commands of the CLX3216: one constructor per row of the table of operations and events.

A row that stands for a dictionary write carries the `Origin` of the request (R305, R306, R312) and the value written.
A row that stands for a moment of the part's own (a window ends, a timer runs out) carries what the outside world
supplies at that moment, and nothing where the part itself holds everything. -/

namespace Sys2Proof

/-- The three transports that reach the dictionary (R15, R308). -/
inductive Transport where
  | line
  | hspi
  | twt
deriving DecidableEq, Repr, Inhabited

/-- What the dictionary engine knows of a request beside entry and value (R305, R312, R315). -/
structure Origin where
  transport : Transport
  /-- Source address of a Line request; 0 for HSPI and TWT. -/
  source : Half
  tag : Half
  /-- Role selector of the envelope or wrapper (R296, R319). -/
  role : BitVec 2
  /-- The request was addressed to the pair address (R294, R312). -/
  toPair : Bool
  /-- The request was addressed to the broadcast address (R313). -/
  broadcast : Bool
  /-- Role epoch field (R312); 0 means not checked for a node address. -/
  epoch : Word
  /-- Deadline field (R311); 0 means none. -/
  deadline : Tick64
deriving DecidableEq, Repr, Inhabited

/-- A measurement point of a path (R117). -/
inductive Point where
  | input
  | output
deriving DecidableEq, Repr, Inhabited

/-- A converter (R67). -/
inductive Converter where
  | rfin (n : Fin 8)
  | rfout (n : Fin 8)
deriving DecidableEq, Repr

/-- What a retimer feeds (R17): an RFOUT word interface or the outbound stream slots of a Line port. -/
inductive Sink where
  | rfout (n : Fin 8)
  | port (q : Fin 3)
deriving DecidableEq, Repr

/-- A front-end output with scheduled edges (R185, R186). -/
inductive SwitchOut where
  | fec (n : Fin 32)
  | trsw (t : Fin 4)
deriving DecidableEq, Repr

/-- What the search reports of one detected synchronisation burst (R192, R194). `position` is the measured position
of the frame start, in 1/16 tick of the station clock. -/
structure Burst where
  position : Int
  cell : Half
  frameNumber : Half
deriving DecidableEq, Repr, Inhabited

/-- What an observation receiver measures for one path in one check (R167): power in CDB units (0.01 dB). -/
structure OobMeasurement where
  path : Fin 32
  inChannel : Int
  lower1 : Int
  upper1 : Int
  lower2 : Int
  upper2 : Int
deriving DecidableEq, Repr, Inhabited

/-- One lane-pair Line frame as the port receives it (R280, R281): the two lane headers, the cells, and the arrival
tick of the lane 0 header less the frame tick, in 1/256 tick (R289). -/
structure LineFrame where
  header0 : List Byte
  header1 : List Byte
  cells : List (List Byte)
  arrival : Int
deriving DecidableEq, Repr, Inhabited

/-- What the bus did with a two-wire transfer (R388, R393). -/
inductive TwOutcome where
  /-- Every byte acknowledged; the bytes read. -/
  | done (read : List Byte)
  /-- The address was not acknowledged. -/
  | addressNack
  /-- A data byte was not acknowledged; how many were before it. -/
  | dataNack (acked : Nat)
  /-- SDA differed from the level driven, or an unexpected START or STOP (R393): at which byte and bit. -/
  | busError (byte : Nat) (bit : Nat) (sdaHigh : Bool)
deriving DecidableEq, Repr

/-- How a TWT transfer was broken (R396). -/
inductive TwtBreak where
  | midByte
  | restartAtAcknowledge
deriving DecidableEq, Repr

/-- The twenty sensor readings of one cycle in 0.01 °C (R340): `none` for an open or shorted diode; for a diode the
Bool says short. -/
structure SensorCycle where
  onDie : List Int
  diode : List (Option Int)
  diodeShort : List Bool
deriving DecidableEq, Repr, Inhabited

/-- The commands: one constructor per row of the table. -/
inductive Instr where
  | entryWrite (o : Origin) (index : Half) (sub : Byte) (value : List Byte)
  | rfinWord (n : Fin 8) (samples : List (BitVec 12))
  | captureComplete (n : Fin 4)
  | sampleRelease (k : Sink)
  | settlingEnd (p : Fin 32)
  | pathGoLive (p : Fin 32)
  | rampEnd (p : Fin 32)
  | converterPowerDown (v : Converter)
  | converterCalibrated (v : Converter)
  | modeRequest (o : Origin) (v : Byte)
  | qualifiedRestart (o : Origin) (v : Half)
  | powerOnReset
  | resetNLow (nanoseconds : Nat)
  | resetCommand (o : Origin) (v : Half)
  | twinResetHold
  | resetRelease (straps : BitVec 7)
  | startLock
  | depotReady
  | imageSave (o : Origin) (v : Byte)
  | imageSaveDone
  | slotErase (o : Origin) (v : Byte)
  | powerOnHour
  | lockLoss
  | relock
  | loFrequencyWrite (o : Origin) (l : Fin 2) (v : Word)
  | loCalibration (o : Origin) (l : Fin 2) (v : Byte)
  | loLock (l : Fin 2)
  | loLockOverdue (l : Fin 2)
  | loLockLoss (l : Fin 2)
  | sourceQualified (src : Fin 3) (time : Tick64)
  | sourceLost (src : Fin 3)
  | timeHoldoverExpiry
  | timeSetAtPps (o : Origin)
  | timeSetNow (o : Origin)
  | timeSetTimeout
  | ppsInEdge
  | ppsInLost
  | ppsOutRise
  | ppsOutFall
  | reftuneUpdate
  | slackWindowEnd
  | controlPeriodStart
  | outputPhase
  | muteWrite (o : Origin) (p : Fin 32) (v : Byte)
  | synchronisingResetCommand (o : Origin) (p : Fin 32) (v : Byte)
  | romCheck (good : Bool)
  | expressWindowEnd (p : Fin 32) (pt : Point)
  | stoppingIntervalEnd (p : Fin 32) (pt : Point)
  | stoppingIntervalWrite (o : Origin) (p : Fin 32) (v : Half)
  | compositeWindowEnd (n : Fin 8)
  | maximaReset (o : Origin) (p : Fin 32) (v : Byte)
  | compositeMaximaReset (o : Origin) (v : Byte)
  | lifetimeMinimumReset (o : Origin) (v : Byte)
  | captureArm (o : Origin) (n : Fin 4)
  | captureAbort (o : Origin) (n : Fin 4)
  | correlationWindowEnd (p : Fin 32)
  | tapFreeze (o : Origin) (p : Fin 32)
  | tapRelease (o : Origin) (p : Fin 32)
  | tapReset (o : Origin) (p : Fin 32) (v : Byte)
  | sweepStart (o : Origin) (p : Fin 32)
  | sweepAbort (o : Origin) (p : Fin 32)
  | sweepPhaseEnd (p : Fin 32)
  | sweepComplete (p : Fin 32)
  | oscillationRetry (p : Fin 32)
  | retryBackoffRelease
  | overloadWindowEnd (n : Fin 8)
  | overloadRelease (n : Fin 8)
  | oobCheck (k : Fin 2) (m : List OobMeasurement)
  | oobMuteLift (p : Fin 32)
  | unverifiedBackoff (k : Fin 2) (p : Fin 32)
  | reflectedMuteLift (n : Fin 8)
  | reflectedBackoffRelease (n : Fin 8)
  | reflectedStale (n : Fin 8)
  | netstopAssert
  | netstopRelease
  | lineStopRelease (o : Origin)
  | lineStopStand (o : Origin)
  | lineStopIsolate (o : Origin)
  | periodStart
  | timetableEntry (n : Fin 64)
  | switchingEdge (w : SwitchOut) (assert : Bool)
  | syncBurstDetected (b : Burst)
  | syncBurstMissed
  | frameHoldoverExpiry
  | pointsBurst (k : Fin 2) (levelA levelB : Option Int)
  | pointsChange (k : Fin 2)
  | coexRequest (k : Fin 2)
  | coexGrant (k : Fin 2)
  | coexRelease (k : Fin 2)
  | coexResume (k : Fin 2)
  | coexGrantOverdue (k : Fin 2)
  | pwmPeriod (a : Fin 2)
  | encoderEdge (a : Fin 2) (levelA levelB : Bool)
  | encoderIndex (a : Fin 2)
  | encoderStall (a : Fin 2)
  | faultClear (o : Origin) (a : Fin 2) (v : Byte)
  | twinPartnerTimeout
  | tokenLost
  | tokenReturn
  | tokenWireFault
  | preemptRise
  | preemptWindowEnd
  | strapConflictReclaim
  | swapCommand (o : Origin) (v : Byte)
  | swapStart
  | swapDriverHandover
  | swapClaim
  | swapAbort
  | twinFrameSend
  | twinFrameReceive (frame : List Byte)
  | twinStreamBreak
  | joinStart
  | joinCommand (o : Origin)
  | twinWithdraw (o : Origin)
  | reintegrationStepDone
  | reintegrationComplete
  | reintegrationAbandon
  | reintegrationBackoffEase
  | takeBack
  | provingSwapDue
  | proveNow (o : Origin) (v : Byte)
  | provingDwellEnd
  | selfTestReceive (o : Origin)
  | selfTestLink (o : Origin)
  | selfTestDone (passed : Bool)
  | laneLock (q : Fin 3)
  | blockLockLoss (q : Fin 3)
  | lineFrameSend (q : Fin 3)
  | lineFrameReceive (q : Fin 3) (frame : LineFrame)
  | fecMismatch (q : Fin 3)
  | managementPacket (q : Fin 3) (packet : List Byte)
  | addressLapse (address : Half)
  | ringProbe
  | ringProbeReturn (returned : Bool)
  | joinRequestSend
  | joinRequest (value : List Byte)
  | joinChallenge (value : List Byte)
  | joinAnswer (value : List Byte)
  | joinDecision (value : List Byte)
  | joinDecisionTimeout
  | joinRetry
  | pendingAccept (o : Origin) (address : Half) (fingerprint : List Byte)
  | pendingReject (o : Origin) (address : Half) (fingerprint : List Byte)
  | rosterWrite (o : Origin) (entry : List Byte)
  | hspiRequest (bytes : List Byte)
  | hspiResponse
  | hspiStatus
  | doorbellSubmit
  | doorbellRelease
  | lineResponse (source : Half) (body : List Byte)
  | transactionTimeout (tag : Half)
  | tagQuarantineEnd (tag : Half)
  | commit (o : Origin)
  | discard (o : Origin)
  | pendingSetLapse
  | commitActivation
  | counterClear (o : Origin) (v : Half)
  | irqClear (o : Origin) (v : Word)
  | attestation (o : Origin) (nonce : List Byte)
  | signatureDone
  | thermalReading (r : SensorCycle)
  | ladderAdvance
  | ladderRetreat
  | sagDecision (rail : Fin 7) (millivolts : Nat)
  | brownOut (rail : Fin 6)
  | saveComplete
  | sagRecovery
  | holdupReading (millivolts : Nat)
  | fieldSupplyLost (millivolts : Nat)
  | fieldSupplyRestored (millivolts : Nat)
  | nvUnitComplete
  | bookFreeze (o : Origin)
  | bookRelease (o : Origin)
  | bookFreezeExpiry
  | bookExport (o : Origin)
  | exportSigned
  | hkTrigger (q : Fin 4)
  | hkTriggerCommand (o : Origin) (q : Fin 4) (v : Byte)
  | hkConversion (microvolts : Nat)
  | hkRunComplete
  | hkUrgentRequest (o : Origin) (channel : Byte)
  | hkMark (o : Origin) (v : Half)
  | twBusCheck (c : Fin 4) (scl sda : Bool)
  | twTransferCommand (o : Origin) (c : Fin 4) (v : Byte)
  | twTransferDone (c : Fin 4) (r : TwOutcome)
  | sclTimeout (c : Fin 4) (sda : Bool)
  | nineClockRecovery (c : Fin 4) (clocks : Nat) (sdaHigh : Bool)
  | sdaStuckRetry (c : Fin 4) (clocks : Nat) (sdaHigh : Bool)
  | twResetCommand (o : Origin) (c : Fin 4) (v : Byte)
  | twResetDone (c : Fin 4)
  | twtWriteByte (first : Bool) (b : Byte)
  | twtReadByte (first : Bool)
  | twtBrokenTransfer (k : TwtBreak)
  | twtTimeout
  | jtagReset
  | extest
  | idcode
  | samplePreload
  | clamp
  | highz
  | bypass
  | lineFrameMissing (q : Fin 3)
  | vholdRunsOut
  | sclRise (c : Fin 4) (sda : Bool)
deriving DecidableEq, Repr

end Sys2Proof
end

