-- ==== Sys2Proof/WellFormed.lean ====
section
/-! DEFINITION. What makes a command well formed: the lengths and bounds its row's operands have by the manual. -/

namespace Sys2Proof

/-- The largest value any transport carries (R308). -/
def Instr.valueOk (v : List Byte) : Bool := v.length ≤ 4096

/-- Twenty sensor readings in a cycle: sixteen on the die, four diodes (R340). -/
def SensorCycle.wellFormed (r : SensorCycle) : Bool :=
  r.onDie.length = 16 && r.diode.length = 4 && r.diodeShort.length = 4

/-- Two lane headers of 16 bytes and 16 cells of 192 (R279 to R281). -/
def LineFrame.wellFormed (f : LineFrame) : Bool :=
  f.header0.length = 16 && f.header1.length = 16 && f.cells.length = 16 && f.cells.all (fun c => c.length = 192)

/-- Whether a command has the shape its row gives it. -/
def Instr.wellFormed : Instr → Bool
  | .entryWrite _ _ _ v => Instr.valueOk v
  | .rfinWord _ l => l.length = 16
  | .oobCheck _ m => m.length ≤ 32
  | .twinFrameReceive f => f.length = 768
  | .lineFrameReceive _ f => f.wellFormed
  | .managementPacket _ p => 17 ≤ p.length && p.length ≤ 1024
  | .joinRequest v => v.length = 85
  | .joinChallenge v => v.length = 50
  | .joinAnswer v => v.length = 80
  | .joinDecision v => v.length = 20
  | .pendingAccept _ _ f => f.length = 8
  | .pendingReject _ _ f => f.length = 8
  | .rosterWrite _ e => e.length = 40
  | .hspiRequest b => b.length ≤ 8 + 4118
  | .lineResponse _ b => 16 ≤ b.length && b.length ≤ 1008
  | .attestation _ n => n.length = 32
  | .thermalReading r => r.wellFormed
  | .nineClockRecovery _ n _ => 1 ≤ n && n ≤ 9
  | .sdaStuckRetry _ n _ => 1 ≤ n && n ≤ 9
  | _ => true

end Sys2Proof
end

