-- ==== Sys2Proof/Config.lean ====
section
/-! DEFINITION. What the manual leaves open: values that an implementation fixes, without a body, so that nothing in
Lean can evaluate them or prove a value of them. -/

namespace Sys2Proof.Config

/-- Fresh open values. `free n` is the n-th value that the machine draws; State counts the draws. -/
opaque free : Nat → Nat

/-- The amplitude of the mixers' sine and cosine (R75, R92): the manual states its width, 18 bits, and not the number. Read
through a clamp. -/
opaque ncoAmplitude : Nat

/-- The response ROM (R97, R98): the b0, b1, b2, a1, a2 and shift of section `k` of entry `id`, whose coefficients the
manual does not list. -/
opaque romSection : (id k : Nat) → Int × Int × Int × Int × Int × Nat
/-- The number of sections, the centre group delay, the settling count and the certification reference of a ROM entry. -/
opaque romSections : (id : Nat) → Nat
opaque romGroupDelay : (id : Nat) → Nat
opaque romSettling : (id : Nat) → Nat
opaque romReference : (id : Nat) → Nat
opaque romLatency : (id : Nat) → Nat
/-- What places the passband lower, passband upper, stopband lower and stopband upper edge of a ROM entry (k = 0 to 3), in
kHz. -/
opaque romEdge : (id k : Nat) → Nat
/-- Whether the ROM passes the check of its CRC at start-up (R114). -/
opaque romGood : Bool
/-- The droop equaliser section of a rate (R94), and the image filter's two sections (R111): not readable. -/
opaque droopSection : (rate : Nat) → Int × Int × Int × Int × Int × Nat
opaque imageSection : (k : Nat) → Int × Int × Int × Int × Int × Nat
/-- What makes up, in 2^-16, for the level that shaping by a ROM entry takes from a sweep's probe (R152). -/
opaque probeMakeup : (id : Nat) → Nat
/-- A linear gain in 2^-24 for a gain in 0.01 dB (R81): read through a clamp to within ±0.005 dB of the gain. -/
opaque gainFactor : Int → Nat
/-- The gain trim, in 0.0001 dB, and the reference trim that the factory temperature coefficients (R23, R351) give a converter
(RFIN0 to 7, then RFOUT0 to 7) at a reading in 0.01 °C. -/
opaque converterTrim : (converter : Nat) → (reading : Int) → Int × Int
/-- Which of its two neighbours a quotient takes where the manual states no rounding (0 or 1, by parity). -/
opaque roundUp : Int → Nat → Nat

/-- The identity engine's functions (R329, R330): key store contents, SHA-256 and ECDSA signatures and verification. -/
opaque serial : List Byte
/-- Whether the identity store passes its CRC (R331). -/
opaque storeGood : Bool
opaque publicKey : List Byte
opaque deviceCertificate : List Byte
opaque intermediateCertificate : List Byte
opaque sha256 : List Byte → List Byte
opaque sign : (nonce : Nat) → List Byte → List Byte
opaque verify : (key message signature : List Byte) → Bool
opaque certificateGood : (certificate intermediate : List Byte) → Bool
opaque certificateKey : (certificate : List Byte) → List Byte
opaque certificateSerial : (certificate : List Byte) → List Byte
/-- Whether an axis counts up where encoder output A leads B (R233): the manual states no direction. -/
opaque encoderUp : Bool

/-- What a book without a record shows: its newest (0) and oldest (1) sequence, and the first sequence it assigns (2). -/
opaque emptySequence : Nat → Nat

/-- The code of a kind, cause or reason in a record whose listed set the manual does not code; `k` names the kind. -/
opaque codeOf : (k : Nat) → Nat

end Sys2Proof.Config
end

