-- ==== Sys2Proof/Machine/Num.lean ====
section
/-! DEFINITION. Numbers and bytes: the encodings of R5 and R7, saturation, bit fields, logarithms to 0.01 dB, and the
two checksums of the part (R280, R257). -/

namespace Sys2Proof.Machine

/-- The two's complement reading of the low `w` bits of `n` (R7). -/
def sInt (w n : Nat) : Int :=
  let m := n % 2 ^ w
  if m < 2 ^ (w - 1) then (m : Int) else (m : Int) - (2 ^ w : Nat)

/-- The `w`-bit two's complement encoding of `x` (R7), wrapping. -/
def rawOf (w : Nat) (x : Int) : Nat := (x % ((2 ^ w : Nat) : Int)).toNat

/-- The least `n` bytes of `v`, byte 0 first (R5). -/
def leBytes : Nat → Nat → List Byte
  | 0, _ => []
  | n + 1, v => BitVec.ofNat 8 v :: leBytes n (v / 256)

/-- The number little-endian bytes spell (R5). -/
def ofLe : List Byte → Nat
  | [] => 0
  | b :: r => b.toNat + 256 * ofLe r

/-- Bytes `a` to `a + n - 1` of a frame, as a number. -/
def field (l : List Byte) (a n : Nat) : Nat := ofLe ((l.drop a).take n)

/-- A list of bytes cut or padded with 0x00 to `n` bytes. -/
def padTo (n : Nat) (l : List Byte) : List Byte := (l ++ List.replicate (n - l.length) 0#8).take n

def clampI (lo hi x : Int) : Int := if x < lo then lo else if hi < x then hi else x
def clampN (lo hi x : Nat) : Nat := if x < lo then lo else if hi < x then hi else x

/-- Saturation to `w` signed bits. -/
def satS (w : Nat) (x : Int) : Int := clampI (-(2 ^ (w - 1) : Nat)) ((2 ^ (w - 1) : Nat) - 1) x

/-- Whether saturation to `w` signed bits changes `x`. -/
def overS (w : Nat) (x : Int) : Bool := decide (satS w x ≠ x)

/-- Wrapping to `w` signed bits. -/
def wrapS (w : Nat) (x : Int) : Int := sInt w (rawOf w x)

/-- Bit `k` of `n`. -/
def bit (n k : Nat) : Bool := n / 2 ^ k % 2 = 1

/-- `n` with bit `k` set to `b`. -/
def setBit (n k : Nat) (b : Bool) : Nat :=
  if bit n k = b then n else if b then n + 2 ^ k else n - 2 ^ k

/-- Bits `hi` to `lo` of `n`. -/
def bits (n hi lo : Nat) : Nat := n / 2 ^ lo % 2 ^ (hi + 1 - lo)

/-- The numbers below `w` whose bits are set in `n`, rising. -/
def bitsOf (w n : Nat) : List Nat := (List.range w).filter (bit n)

/-- The mask with the bits of `l` set. -/
def maskOf : List Nat → Nat
  | [] => 0
  | k :: r => setBit (maskOf r) k true

/-- Rounding of `n / d` to the nearest integer, halves away from zero. -/
def roundDiv (n : Int) (d : Nat) : Int :=
  if 0 ≤ n then (2 * n + d) / (2 * d) else -((2 * (-n) + d) / (2 * d))

/-- Rounding of `x / 2^k` to the nearest integer, halves toward plus infinity. -/
def roundShift (x : Int) (k : Nat) : Int :=
  if k = 0 then x else (x + (2 ^ (k - 1) : Nat)) / ((2 ^ k : Nat) : Int)

/-- The CDB code for "no value" (R8). -/
def noCdb : Nat := 0x8000

/-- The CDB encoding of `x` hundredths of a dB, held inside the range of R7. -/
def cdbRaw (x : Int) : Nat := rawOf 16 (clampI (-32767) 32767 x)

/-- The hundredths of a dB a raw CDB encodes. -/
def cdbInt (n : Nat) : Int := sInt 16 n

/-- The greatest `k < 2^(n)` offset from `base` with `ok (base + k)`, for an `ok` that fails from some point on:
binary search from the top bit. -/
def searchUp (ok : Nat → Bool) : Nat → Nat → Nat
  | 0, base => base
  | n + 1, base => if ok (base + 2 ^ n) then searchUp ok n (base + 2 ^ n) else searchUp ok n base

/-- 1,000 log10(num / den), that is 100 × 10 log10, rounded to the nearest integer, for positive num and den: the
level in 0.01 dB. The offset 32,768 makes the search non-negative. -/
def cdbLog10 (num den : Nat) : Int :=
  (searchUp (fun m =>
    -- m - 32,768 - 1/2 ≤ 1,000 log10 (num / den)
    let e : Int := 2 * (m : Int) - 65537
    if 0 ≤ e then den ^ 2000 * 10 ^ e.toNat ≤ num ^ 2000
    else den ^ 2000 ≤ num ^ 2000 * 10 ^ (-e).toNat) 16 0 : Nat) - (32768 : Int)

/-- One bit of the CRC-16 of R280: polynomial 0x1021, no reflection. -/
def crc16Bit (c : BitVec 16) : BitVec 16 :=
  if c.msb then (c <<< 1) ^^^ 0x1021#16 else c <<< 1

def crc16Byte (c : BitVec 16) (b : Byte) : BitVec 16 :=
  let c0 := c ^^^ (b.zeroExtend 16 <<< 8)
  crc16Bit (crc16Bit (crc16Bit (crc16Bit (crc16Bit (crc16Bit (crc16Bit (crc16Bit c0)))))))

/-- CRC-16 with initial value 0xFFFF and no final inversion (R280). -/
def crc16 (l : List Byte) : Nat := (l.foldl crc16Byte 0xFFFF#16).toNat

def crc32Bit (c : BitVec 32) : BitVec 32 :=
  if c.getLsbD 0 then (c >>> 1) ^^^ 0xEDB88320#32 else c >>> 1

def crc32Byte (c : BitVec 32) (b : Byte) : BitVec 32 :=
  let c0 := c ^^^ b.zeroExtend 32
  crc32Bit (crc32Bit (crc32Bit (crc32Bit (crc32Bit (crc32Bit (crc32Bit (crc32Bit c0)))))))

/-- CRC-32, IEEE 802.3 polynomial (R257, R296, R358, R41). -/
def crc32 (l : List Byte) : Nat := (~~~(l.foldl crc32Byte 0xFFFFFFFF#32)).toNat

/-- Difference of two TICK32 points in time, modulo 2^32 (R4). -/
def diff32 (a b : Nat) : Nat := (a + 2 ^ 32 - b % 2 ^ 32) % 2 ^ 32

/-- The first multiple of `m` at or after `x`. -/
def ceilMul (m x : Nat) : Nat := (x + m - 1) / m * m

/-- Ceiling of `n / d`. -/
def ceilDiv (n d : Nat) : Nat := (n + d - 1) / d

/-- `l` with element `i` replaced (unchanged where `i` is out of range). -/
def setAt {α : Type} : List α → Nat → α → List α
  | [], _, _ => []
  | _ :: r, 0, v => v :: r
  | x :: r, i + 1, v => x :: setAt r i v

end Sys2Proof.Machine
end

