-- ==== Sys2Proof/Machine/Tab.lean ====
section
/-! DEFINITION. Sparse tables: finitely many entries by number, in one canonical form. A number that is not listed holds
its default, numbers rise strictly, and no listed value equals its default, so equal tables are equal data. -/

namespace Sys2Proof.Machine

/-- A sparse table from numbers to values. -/
abbrev Tab (α : Type) := List (Nat × α)

/-- The listed value at `k`. -/
def Tab.find? {α : Type} : Tab α → Nat → Option α
  | [], _ => none
  | (j, v) :: r, k => if j = k then some v else Tab.find? r k

/-- The value at `k`: the listed one, else the default. -/
def Tab.get {α : Type} (dflt : Nat → α) (t : Tab α) (k : Nat) : α :=
  (t.find? k).getD (dflt k)

/-- The table without an entry at `k`. -/
def Tab.drop {α : Type} : Tab α → Nat → Tab α
  | [], _ => []
  | (j, v) :: r, k => if j = k then Tab.drop r k else (j, v) :: Tab.drop r k

/-- The table with `v` listed at `k`, in rising order. -/
def Tab.insert {α : Type} : Tab α → Nat → α → Tab α
  | [], k, v => [(k, v)]
  | (j, u) :: r, k, v =>
    if k < j then (k, v) :: (j, u) :: r
    else if k = j then (k, v) :: r
    else (j, u) :: Tab.insert r k v

/-- The table in which `k` holds `v`: listed, or dropped where `v` is the default. -/
def Tab.put {α : Type} [DecidableEq α] (dflt : Nat → α) (t : Tab α) (k : Nat) (v : α) : Tab α :=
  if v = dflt k then t.drop k else t.insert k v

/-- The table with the value at `k` changed by `f`. -/
def Tab.mod {α : Type} [DecidableEq α] (dflt : Nat → α) (t : Tab α) (k : Nat) (f : α → α) : Tab α :=
  t.put dflt k (f (t.get dflt k))

/-- The table with every listed value changed by `f`; values that become the default are dropped. -/
def Tab.mapAll {α : Type} [DecidableEq α] (dflt : Nat → α) (t : Tab α) (f : α → α) : Tab α :=
  (t.map (fun e => (e.1, f e.2))).filter (fun e => e.2 ≠ dflt e.1)

/-- The canonical form: numbers rise strictly and no listed value is its default. -/
abbrev Tab.wf {α : Type} [DecidableEq α] (dflt : Nat → α) (t : Tab α) : Prop :=
  (t.map Prod.fst).Pairwise (· < ·) ∧ ∀ e ∈ t, e.2 ≠ dflt e.1

end Sys2Proof.Machine
end

