-- ==== Sys2Proof/Machine/Entries.lean ====
section
/-! DEFINITION. The object dictionary's map (R414 to R429): for every entry its type, access, effect, default, stated range
and marks, as the defining chapters' tables list them. An instanced block stands once, under its first index (R415). -/

namespace Sys2Proof.Machine

/-- The value types of R7. A width is in bytes. -/
inductive Ty where
  | bool
  | u (bytes : Nat)
  | s (bytes : Nat)
  | cdb
  | enum (codes : List Nat)
  | oct (bytes : Nat)
deriving DecidableEq, Repr

/-- The access classes of "Scope and conventions". -/
inductive Acc where
  | ro
  | rw
  | rwd
  | cmd
deriving DecidableEq, Repr

/-- The marks of R416. -/
inductive Mark where
  | stat
  | persistent
  | notSaved
  | twinLocal
  | hspiOnly
  | notTwt
  | notClearable
deriving DecidableEq, Repr

/-- One row of the map: subindices `lo` to `hi` of the block's first index. -/
structure Row where
  index : Nat
  lo : Nat
  hi : Nat
  ty : Ty
  acc : Acc
  staged : Bool
  dflt : Nat
  range : Option (Int × Int)
  marks : List Mark
deriving DecidableEq, Repr

def rowsNode0 : List Row := [
  ⟨0x1000, 0, 0, .oct 16, .ro, false, 0x36313233584c43, none, []⟩,
  ⟨0x1001, 0, 0, .u 4, .ro, false, 0x3216, none, []⟩,
  ⟨0x1002, 0, 0, .u 2, .ro, false, 256, none, []⟩,
  ⟨0x1003, 0, 0, .u 2, .ro, false, 1, none, []⟩,
  ⟨0x1004, 0, 0, .u 4, .ro, false, 0, none, []⟩,
  ⟨0x1100, 0, 0, .enum [0, 1, 2, 3, 4, 5], .ro, false, 0, none, []⟩,
  ⟨0x1101, 0, 0, .enum [0, 1, 2, 3, 4, 5], .rw, false, 0, none, [.notSaved]⟩,
  ⟨0x1102, 0, 0, .u 4, .ro, false, 0, none, []⟩,
  ⟨0x1103, 0, 0, .u 1, .ro, false, 4, none, []⟩,
  ⟨0x1103, 1, 1, .u 2, .ro, false, 0, none, [.persistent]⟩,
  ⟨0x1103, 2, 2, .u 2, .ro, false, 0, none, [.persistent]⟩,
  ⟨0x1103, 3, 3, .u 8, .ro, false, 0, none, [.persistent]⟩,
  ⟨0x1103, 4, 4, .u 2, .cmd, false, 0, none, []⟩,
  ⟨0x1104, 0, 0, .u 1, .ro, false, 7, none, []⟩,
  ⟨0x1104, 1, 1, .u 8, .rw, false, 0, none, [.notSaved]⟩,
  ⟨0x1104, 2, 2, .u 1, .cmd, false, 4, none, []⟩,
  ⟨0x1104, 3, 3, .u 2, .ro, false, 0, none, []⟩,
  ⟨0x1104, 4, 4, .u 4, .ro, false, 0, none, []⟩,
  ⟨0x1104, 5, 5, .u 8, .ro, false, 0, none, []⟩,
  ⟨0x1104, 6, 6, .u 2, .ro, false, 0, none, []⟩,
  ⟨0x1104, 7, 7, .u 2, .ro, false, 0, none, []⟩,
  ⟨0x1105, 0, 0, .enum [0, 1, 2, 3], .ro, false, 0, none, []⟩,
  ⟨0x1106, 0, 0, .u 4, .ro, false, 0, none, []⟩,
  ⟨0x1107, 0, 0, .u 1, .ro, false, 0, none, []⟩,
  ⟨0x1108, 0, 0, .u 2, .cmd, false, 0, none, []⟩,
  ⟨0x1109, 0, 0, .cdb, .ro, false, 0, none, []⟩,
  ⟨0x110A, 0, 0, .u 4, .ro, false, 0, none, []⟩,
  ⟨0x110B, 0, 0, .enum [0, 2, 4], .rw, false, 0, none, []⟩,
  ⟨0x110C, 0, 0, .bool, .ro, false, 0, none, [.persistent]⟩,
  ⟨0x1110, 0, 0, .enum [0, 1, 2], .rw, false, 0, none, [.persistent]⟩,
  ⟨0x1111, 0, 0, .u 1, .ro, false, 2, none, []⟩,
  ⟨0x1111, 1, 1, .enum [0, 1, 2], .ro, false, 0, none, []⟩,
  ⟨0x1111, 2, 2, .u 4, .ro, false, 0, none, []⟩,
  ⟨0x1112, 0, 0, .u 1, .cmd, false, 0, none, []⟩,
  ⟨0x1113, 0, 0, .oct 64, .ro, false, 0, none, []⟩,
  ⟨0x1114, 0, 0, .oct 64, .ro, false, 0, none, []⟩,
  ⟨0x1115, 0, 0, .u 1, .cmd, false, 0, none, []⟩,
  ⟨0x1120, 0, 0, .u 4, .ro, false, 0, none, [.stat, .notClearable, .persistent]⟩,
  ⟨0x1121, 0, 0, .u 4, .ro, false, 0, none, [.stat, .notClearable, .persistent]⟩,
  ⟨0x1130, 0, 0, .u 2, .rw, false, 1000, some (1, 60000), []⟩]

def rowsNode1 : List Row := [
  ⟨0x1131, 0, 0, .u 2, .ro, false, 0, none, []⟩,
  ⟨0x1132, 0, 0, .u 2, .cmd, false, 0, none, []⟩,
  ⟨0x1133, 0, 0, .u 1, .ro, false, 6, none, []⟩,
  ⟨0x1133, 1, 1, .u 4, .ro, false, 0, none, []⟩,
  ⟨0x1133, 2, 2, .u 4, .ro, false, 0, none, [.stat]⟩,
  ⟨0x1133, 3, 3, .u 4, .ro, false, 0, none, [.stat]⟩,
  ⟨0x1133, 4, 4, .u 4, .ro, false, 0, none, [.stat]⟩,
  ⟨0x1133, 5, 5, .u 4, .ro, false, 0, none, [.stat]⟩,
  ⟨0x1133, 6, 6, .u 4, .ro, false, 0, none, [.stat]⟩,
  ⟨0x1134, 0, 0, .u 4, .rw, false, 0, none, [.notSaved]⟩,
  ⟨0x1135, 0, 0, .u 4, .rw, false, 3, none, []⟩,
  ⟨0x1200, 0, 0, .enum [0, 1, 2, 3], .ro, false, 0, none, []⟩,
  ⟨0x1201, 0, 0, .u 1, .ro, false, 0, none, []⟩,
  ⟨0x1202, 0, 0, .u 4, .ro, false, 0, none, [.stat]⟩,
  ⟨0x1210, 0, 0, .u 1, .ro, false, 8, none, []⟩,
  ⟨0x1210, 1, 1, .u 4, .rw, false, 0, none, []⟩,
  ⟨0x1210, 2, 2, .enum [0, 1, 2, 3], .rw, false, 2, none, []⟩,
  ⟨0x1210, 3, 3, .u 1, .ro, false, 0, none, []⟩,
  ⟨0x1210, 4, 4, .u 4, .ro, false, 0, none, [.stat]⟩,
  ⟨0x1210, 5, 5, .u 4, .ro, false, 0, none, [.stat]⟩,
  ⟨0x1210, 6, 6, .u 1, .cmd, false, 0, none, []⟩,
  ⟨0x1210, 7, 7, .u 1, .ro, false, 0, none, []⟩,
  ⟨0x1210, 8, 8, .u 8, .ro, false, 0, none, []⟩,
  ⟨0x1211, 0, 0, .u 1, .ro, false, 8, none, []⟩,
  ⟨0x1211, 1, 1, .u 4, .rw, false, 0, none, []⟩,
  ⟨0x1211, 2, 2, .enum [0, 1, 2, 3], .rw, false, 2, none, []⟩,
  ⟨0x1211, 3, 3, .u 1, .ro, false, 0, none, []⟩,
  ⟨0x1211, 4, 4, .u 4, .ro, false, 0, none, [.stat]⟩,
  ⟨0x1211, 5, 5, .u 4, .ro, false, 0, none, [.stat]⟩,
  ⟨0x1211, 6, 6, .u 1, .cmd, false, 0, none, []⟩,
  ⟨0x1211, 7, 7, .u 1, .ro, false, 0, none, []⟩,
  ⟨0x1211, 8, 8, .u 8, .ro, false, 0, none, []⟩,
  ⟨0x1220, 0, 0, .u 8, .ro, false, 0, none, []⟩,
  ⟨0x1221, 0, 0, .enum [0, 1, 2, 3, 4], .ro, false, 0, none, []⟩,
  ⟨0x1222, 0, 0, .enum [0, 1, 2, 3], .ro, false, 0, none, []⟩,
  ⟨0x1223, 0, 0, .u 1, .ro, false, 4, none, []⟩,
  ⟨0x1223, 1, 1, .enum [0, 1, 2, 3], .rw, false, 1, none, []⟩,
  ⟨0x1223, 2, 2, .enum [0, 1, 2, 3], .rw, false, 2, none, []⟩,
  ⟨0x1223, 3, 3, .enum [0, 1, 2, 3], .rw, false, 3, none, []⟩,
  ⟨0x1223, 4, 4, .u 1, .rw, false, 0, some (0, 15), []⟩]

def rowsNode2 : List Row := [
  ⟨0x1224, 0, 0, .u 2, .rw, false, 10, some (1, 3600), []⟩,
  ⟨0x1225, 0, 0, .s 4, .ro, false, 0x80000000, none, []⟩,
  ⟨0x1226, 0, 0, .s 4, .ro, false, 0x80000000, none, []⟩,
  ⟨0x1227, 0, 0, .u 1, .ro, false, 2, none, []⟩,
  ⟨0x1227, 1, 1, .u 8, .rw, false, 0, none, []⟩,
  ⟨0x1227, 2, 2, .u 1, .cmd, false, 0, none, []⟩,
  ⟨0x1228, 0, 0, .u 4, .ro, false, 0, none, [.stat]⟩,
  ⟨0x122A, 0, 0, .u 4, .ro, false, 0, none, [.stat]⟩,
  ⟨0x122B, 0, 0, .u 4, .rw, false, 49, some (4, 49152), []⟩,
  ⟨0x122C, 0, 0, .s 2, .rw, false, 0, none, []⟩,
  ⟨0x122D, 0, 0, .u 1, .rw, false, 1, none, []⟩,
  ⟨0x122E, 0, 0, .s 4, .rw, false, 0, some (-245760000, 245760000), []⟩,
  ⟨0x122F, 0, 0, .u 4, .rw, false, 0x2ee0000, some (491520, 245760000), []⟩,
  ⟨0x1230, 0, 0, .u 1, .ro, false, 8, none, []⟩,
  ⟨0x1230, 1, 1, .enum [0, 1, 2], .rw, false, 1, none, []⟩,
  ⟨0x1230, 2, 2, .u 2, .rw, false, 0x8000, none, []⟩,
  ⟨0x1230, 3, 3, .u 2, .rwd, true, 305, some (1, 65535), []⟩,
  ⟨0x1230, 4, 4, .bool, .rwd, true, 0, none, []⟩,
  ⟨0x1230, 5, 5, .enum [0, 1, 2], .rw, false, 1, none, []⟩,
  ⟨0x1230, 6, 6, .u 2, .rw, false, 500, some (1, 2000), []⟩,
  ⟨0x1230, 7, 7, .s 2, .ro, false, 0, none, []⟩,
  ⟨0x1230, 8, 8, .u 1, .ro, false, 0, none, []⟩,
  ⟨0x1240, 0, 0, .u 2, .rwd, true, 48, some (4, 65535), []⟩,
  ⟨0x1241, 0, 0, .u 4, .ro, false, 0x1800, none, []⟩,
  ⟨0x1242, 0, 0, .u 4, .ro, false, 0, none, []⟩,
  ⟨0x1243, 0, 0, .u 4, .ro, false, 0, none, [.stat]⟩]

/-- Entries of identity, modes, commits, clocks and station time (R417, R419, R420). -/
def rowsNode : List Row :=
  rowsNode0 ++ rowsNode1 ++ rowsNode2

def rowsPath0 : List Row := [
  ⟨0x2000, 0, 0, .u 1, .ro, false, 13, none, []⟩,
  ⟨0x2000, 1, 1, .enum [0, 1, 2, 3, 4], .rwd, true, 0, none, []⟩,
  ⟨0x2000, 2, 2, .u 2, .rwd, true, 0, none, []⟩,
  ⟨0x2000, 3, 3, .u 2, .rwd, true, 0, none, []⟩,
  ⟨0x2000, 4, 7, .u 2, .rw, true, 0, none, []⟩,
  ⟨0x2000, 8, 8, .u 4, .rw, true, 0, none, []⟩,
  ⟨0x2000, 9, 9, .enum [0, 1, 2, 3, 4], .rwd, true, 0, none, []⟩,
  ⟨0x2000, 10, 10, .enum [0, 1, 2, 3, 4], .rwd, true, 0, none, []⟩,
  ⟨0x2000, 11, 11, .u 4, .rwd, true, 122, some (88, 32767), [.twinLocal]⟩,
  ⟨0x2000, 12, 12, .u 4, .rwd, true, 122, some (88, 32767), [.twinLocal]⟩,
  ⟨0x2000, 13, 13, .u 1, .rw, false, 4, some (0, 7), []⟩,
  ⟨0x2001, 0, 0, .u 1, .ro, false, 9, none, []⟩,
  ⟨0x2001, 1, 1, .enum [0, 1, 2, 3, 4], .ro, false, 0, none, []⟩,
  ⟨0x2001, 2, 2, .u 2, .ro, false, 16, none, []⟩,
  ⟨0x2001, 3, 3, .u 4, .ro, false, 0, none, []⟩,
  ⟨0x2001, 4, 4, .u 4, .ro, false, 0, none, []⟩,
  ⟨0x2001, 5, 5, .u 8, .ro, false, 0, none, []⟩,
  ⟨0x2001, 6, 6, .u 8, .ro, false, 0, none, []⟩,
  ⟨0x2001, 7, 7, .u 4, .ro, false, 0, none, []⟩,
  ⟨0x2001, 8, 8, .u 4, .ro, false, 0, none, []⟩,
  ⟨0x2001, 9, 9, .u 4, .ro, false, 0, none, [.stat]⟩,
  ⟨0x2002, 0, 0, .u 1, .ro, false, 6, none, []⟩,
  ⟨0x2002, 1, 1, .cdb, .rw, false, 0, some (-6000, 4000), []⟩,
  ⟨0x2002, 2, 2, .cdb, .ro, false, 0, none, []⟩,
  ⟨0x2002, 3, 3, .cdb, .ro, false, 0x8000, none, []⟩,
  ⟨0x2002, 4, 4, .cdb, .ro, false, 0x8000, none, []⟩,
  ⟨0x2002, 5, 5, .cdb, .ro, false, 0x8000, none, []⟩,
  ⟨0x2002, 6, 6, .u 4, .ro, false, 0, none, [.stat]⟩,
  ⟨0x2003, 0, 0, .bool, .rw, false, 0, none, []⟩,
  ⟨0x2008, 0, 0, .u 1, .ro, false, 9, none, []⟩,
  ⟨0x2008, 1, 1, .u 2, .rw, true, 0, some (0, 2047), []⟩,
  ⟨0x2008, 2, 2, .u 1, .ro, false, 0, none, []⟩,
  ⟨0x2008, 3, 3, .u 4, .ro, false, 6, none, []⟩,
  ⟨0x2008, 4, 4, .u 2, .ro, false, 0, none, []⟩,
  ⟨0x2008, 5, 5, .u 2, .ro, false, 4, none, []⟩,
  ⟨0x2008, 6, 6, .u 1, .ro, false, 255, none, []⟩,
  ⟨0x2008, 7, 7, .u 4, .ro, false, 0, none, [.stat]⟩,
  ⟨0x2008, 8, 8, .u 4, .ro, false, 0, none, [.stat]⟩,
  ⟨0x2008, 9, 9, .u 4, .ro, false, 0, none, [.stat]⟩,
  ⟨0x2009, 0, 0, .u 1, .ro, false, 5, none, []⟩]

def rowsPath1 : List Row := [
  ⟨0x2009, 1, 1, .u 2, .ro, false, 0xffff, none, []⟩,
  ⟨0x2009, 2, 2, .u 4, .ro, false, 0, none, [.stat]⟩,
  ⟨0x2009, 3, 3, .u 4, .ro, false, 0, none, [.stat]⟩,
  ⟨0x2009, 4, 4, .enum [0, 1, 2, 3, 4, 5, 6, 7], .ro, false, 0, none, []⟩,
  ⟨0x2009, 5, 5, .u 1, .cmd, false, 0, none, []⟩,
  ⟨0x200A, 0, 0, .u 1, .ro, false, 3, none, []⟩,
  ⟨0x200A, 1, 1, .u 2, .rw, true, 0, some (0, 1023), [.twinLocal]⟩,
  ⟨0x200A, 2, 2, .u 1, .rw, true, 0, none, [.twinLocal]⟩,
  ⟨0x200A, 3, 3, .enum [0, 1, 2], .rwd, true, 0, none, [.twinLocal]⟩,
  ⟨0x200B, 0, 0, .u 1, .ro, false, 3, none, []⟩,
  ⟨0x200B, 1, 1, .u 2, .ro, false, 12, none, []⟩,
  ⟨0x200B, 2, 2, .u 2, .ro, false, 192, none, []⟩,
  ⟨0x200B, 3, 3, .bool, .ro, false, 0, none, []⟩,
  ⟨0x2010, 0, 0, .u 1, .ro, false, 3, none, []⟩,
  ⟨0x2010, 1, 1, .u 2, .rw, false, 100, some (1, 1000), []⟩,
  ⟨0x2010, 2, 2, .bool, .rw, false, 1, none, []⟩,
  ⟨0x2010, 3, 3, .u 1, .cmd, false, 0, none, []⟩,
  ⟨0x2011, 0, 0, .u 1, .ro, false, 6, none, []⟩,
  ⟨0x2011, 1, 1, .cdb, .ro, false, 0x8000, none, []⟩,
  ⟨0x2011, 2, 2, .u 4, .ro, false, 0, none, []⟩,
  ⟨0x2011, 3, 3, .cdb, .ro, false, 0x8000, none, []⟩,
  ⟨0x2011, 4, 4, .u 4, .ro, false, 0, none, [.stat]⟩,
  ⟨0x2011, 5, 5, .u 1, .ro, false, 4, none, []⟩,
  ⟨0x2011, 6, 6, .oct 8, .ro, false, 0, none, []⟩,
  ⟨0x2012, 0, 0, .u 1, .ro, false, 6, none, []⟩,
  ⟨0x2012, 1, 1, .cdb, .ro, false, 0x8000, none, []⟩,
  ⟨0x2012, 2, 2, .u 4, .ro, false, 0, none, []⟩,
  ⟨0x2012, 3, 3, .cdb, .ro, false, 0x8000, none, []⟩,
  ⟨0x2012, 4, 4, .u 4, .ro, false, 0, none, [.stat]⟩,
  ⟨0x2012, 5, 5, .u 1, .ro, false, 4, none, []⟩,
  ⟨0x2012, 6, 6, .oct 8, .ro, false, 0, none, []⟩,
  ⟨0x2013, 0, 0, .u 1, .ro, false, 5, none, []⟩,
  ⟨0x2013, 1, 1, .cdb, .ro, false, 0x8000, none, []⟩,
  ⟨0x2013, 2, 2, .u 4, .ro, false, 0, none, []⟩,
  ⟨0x2013, 3, 3, .u 4, .ro, false, 0, none, []⟩,
  ⟨0x2013, 4, 4, .u 4, .ro, false, 0, none, [.stat]⟩,
  ⟨0x2013, 5, 5, .u 1, .ro, false, 0, none, []⟩,
  ⟨0x2014, 0, 0, .u 1, .ro, false, 5, none, []⟩,
  ⟨0x2014, 1, 1, .cdb, .ro, false, 0x8000, none, []⟩,
  ⟨0x2014, 2, 2, .u 4, .ro, false, 0, none, []⟩]

def rowsPath2 : List Row := [
  ⟨0x2014, 3, 3, .u 4, .ro, false, 0, none, []⟩,
  ⟨0x2014, 4, 4, .u 4, .ro, false, 0, none, [.stat]⟩,
  ⟨0x2014, 5, 5, .u 1, .ro, false, 0, none, []⟩,
  ⟨0x2018, 0, 0, .u 1, .ro, false, 6, none, []⟩,
  ⟨0x2018, 1, 1, .u 1, .rwd, true, 0, some (0, 64), []⟩,
  ⟨0x2018, 2, 2, .u 2, .rwd, true, 0, some (0, 4095), []⟩,
  ⟨0x2018, 3, 3, .u 2, .rwd, true, 0, none, []⟩,
  ⟨0x2018, 4, 4, .enum [0, 1], .rwd, true, 0, none, []⟩,
  ⟨0x2018, 5, 5, .u 4, .ro, false, 0, none, []⟩,
  ⟨0x2018, 6, 6, .u 1, .ro, false, 255, none, []⟩,
  ⟨0x2019, 0, 0, .u 1, .ro, false, 7, none, []⟩,
  ⟨0x2019, 1, 1, .u 1, .rw, false, 8, some (4, 20), []⟩,
  ⟨0x2019, 2, 2, .u 1, .rw, false, 24, none, []⟩,
  ⟨0x2019, 3, 3, .cdb, .rw, false, 0xe890, some (-9000, -2000), []⟩,
  ⟨0x2019, 4, 4, .enum [0, 1, 2, 3, 4, 5, 6], .rw, false, 2, none, []⟩,
  ⟨0x2019, 5, 5, .u 1, .cmd, false, 0, none, []⟩,
  ⟨0x2019, 6, 6, .u 1, .cmd, false, 0, none, []⟩,
  ⟨0x2019, 7, 7, .enum [0, 1, 2, 3, 4, 5, 6], .ro, false, 0, none, []⟩,
  ⟨0x201A, 0, 0, .u 1, .ro, false, 11, none, []⟩,
  ⟨0x201A, 1, 1, .cdb, .ro, false, 0x8000, none, []⟩,
  ⟨0x201A, 2, 2, .cdb, .ro, false, 0x8000, none, []⟩,
  ⟨0x201A, 3, 3, .cdb, .ro, false, 0x8000, none, []⟩,
  ⟨0x201A, 4, 4, .cdb, .ro, false, 0x8000, none, []⟩,
  ⟨0x201A, 5, 5, .cdb, .ro, false, 0x8000, none, []⟩,
  ⟨0x201A, 6, 6, .cdb, .ro, false, 0x8000, none, []⟩,
  ⟨0x201A, 7, 7, .u 2, .ro, false, 0, none, []⟩,
  ⟨0x201A, 8, 8, .u 4, .ro, false, 0, none, []⟩,
  ⟨0x201A, 9, 9, .u 4, .ro, false, 0, none, []⟩,
  ⟨0x201A, 10, 10, .u 1, .ro, false, 0, none, []⟩,
  ⟨0x201A, 11, 11, .u 4, .ro, false, 0, none, [.stat]⟩,
  ⟨0x201B, 0, 0, .u 1, .ro, false, 6, none, []⟩,
  ⟨0x201B, 1, 1, .cdb, .rw, false, 1500, some (600, 4000), []⟩,
  ⟨0x201B, 2, 2, .cdb, .rw, false, 3500, some (0, 3500), []⟩,
  ⟨0x201B, 3, 3, .u 2, .rw, false, 300, some (1, 3000), []⟩,
  ⟨0x201B, 4, 4, .cdb, .ro, false, 0x8000, none, []⟩,
  ⟨0x201B, 5, 5, .enum [0, 1, 2, 3], .ro, false, 0, none, []⟩,
  ⟨0x201B, 6, 6, .u 4, .ro, false, 0, none, [.stat]⟩,
  ⟨0x201C, 0, 0, .u 1, .ro, false, 8, none, []⟩,
  ⟨0x201C, 1, 1, .u 1, .cmd, false, 0, none, []⟩,
  ⟨0x201C, 2, 2, .cdb, .rw, false, 0xf31c, some (-6000, -3000), []⟩]

def rowsPath3 : List Row := [
  ⟨0x201C, 3, 3, .cdb, .rwd, true, 0, some (-2000, 10000), []⟩,
  ⟨0x201C, 4, 4, .bool, .rwd, true, 0, none, []⟩,
  ⟨0x201C, 5, 5, .cdb, .ro, false, 0x8000, none, []⟩,
  ⟨0x201C, 6, 6, .cdb, .ro, false, 0x8000, none, []⟩,
  ⟨0x201C, 7, 7, .u 1, .ro, false, 0, none, []⟩,
  ⟨0x201C, 8, 8, .u 8, .ro, false, 0, none, []⟩,
  ⟨0x2020, 0, 0, .u 1, .ro, false, 8, none, []⟩,
  ⟨0x2020, 1, 1, .cdb, .rw, false, 600, some (300, 1200), []⟩,
  ⟨0x2020, 2, 2, .u 2, .rw, false, 0x8000, none, []⟩,
  ⟨0x2020, 3, 3, .u 1, .rw, false, 3, some (2, 8), []⟩,
  ⟨0x2020, 4, 4, .enum [0, 1, 2, 3], .ro, false, 0, none, []⟩,
  ⟨0x2020, 5, 5, .u 1, .ro, false, 0, none, []⟩,
  ⟨0x2020, 6, 6, .u 4, .ro, false, 0, none, [.stat]⟩,
  ⟨0x2020, 7, 7, .u 8, .ro, false, 0, none, []⟩,
  ⟨0x2020, 8, 8, .cdb, .ro, false, 0x8000, none, []⟩,
  ⟨0x2021, 0, 0, .u 1, .ro, false, 7, none, []⟩,
  ⟨0x2021, 1, 1, .bool, .rw, false, 0, none, []⟩,
  ⟨0x2021, 2, 2, .cdb, .rw, false, 0xe4a8, some (-10000, 0), []⟩,
  ⟨0x2021, 3, 3, .cdb, .rw, false, 300, some (100, 1000), []⟩,
  ⟨0x2021, 4, 4, .u 2, .rw, false, 64, some (1, 65535), []⟩,
  ⟨0x2021, 5, 5, .cdb, .rw, false, 0xf448, some (-6000, 0), []⟩,
  ⟨0x2021, 6, 6, .enum [0, 1, 2], .ro, false, 0, none, []⟩,
  ⟨0x2021, 7, 7, .u 4, .ro, false, 0, none, [.stat]⟩,
  ⟨0x2022, 0, 0, .u 1, .ro, false, 5, none, []⟩,
  ⟨0x2022, 1, 1, .bool, .rw, false, 0, none, []⟩,
  ⟨0x2022, 2, 2, .cdb, .rw, false, 0xf060, none, []⟩,
  ⟨0x2022, 3, 3, .cdb, .rw, false, 0xf830, some (-3000, -100), []⟩,
  ⟨0x2022, 4, 4, .cdb, .ro, false, 0, none, []⟩,
  ⟨0x2022, 5, 5, .u 4, .ro, false, 0, none, [.stat]⟩,
  ⟨0x2023, 0, 0, .u 1, .ro, false, 7, none, []⟩,
  ⟨0x2023, 1, 1, .bool, .rwd, true, 1, none, []⟩,
  ⟨0x2023, 2, 2, .cdb, .rw, false, 0xf830, some (-3000, -300), []⟩,
  ⟨0x2023, 3, 3, .cdb, .ro, false, 0, none, []⟩,
  ⟨0x2023, 4, 4, .cdb, .ro, false, 0x8000, none, []⟩,
  ⟨0x2023, 5, 5, .enum [0, 1, 2, 3], .ro, false, 0, none, []⟩,
  ⟨0x2023, 6, 6, .u 4, .ro, false, 0, none, [.stat]⟩,
  ⟨0x2023, 7, 7, .u 1, .ro, false, 0, none, []⟩,
  ⟨0x2024, 0, 0, .u 1, .ro, false, 3, none, []⟩,
  ⟨0x2024, 1, 1, .u 2, .ro, false, 0, none, []⟩,
  ⟨0x2024, 2, 2, .cdb, .ro, false, 0x8000, none, []⟩]

def rowsPath4 : List Row := [
  ⟨0x2024, 3, 3, .u 4, .ro, false, 0, none, [.stat]⟩,
  ⟨0x2028, 0, 0, .u 1, .ro, false, 2, none, []⟩,
  ⟨0x2028, 1, 1, .enum [0, 1], .rwd, true, 0, none, []⟩,
  ⟨0x2028, 2, 2, .enum [0, 1, 2, 3], .ro, false, 0, none, []⟩,
  ⟨0x2029, 0, 0, .u 1, .ro, false, 5, none, []⟩,
  ⟨0x2029, 1, 1, .u 4, .ro, false, 0, none, [.stat]⟩,
  ⟨0x2029, 2, 2, .u 4, .ro, false, 0, none, [.stat]⟩,
  ⟨0x2029, 3, 3, .u 4, .ro, false, 0, none, [.stat]⟩,
  ⟨0x2029, 4, 4, .u 4, .ro, false, 0, none, [.stat]⟩,
  ⟨0x2029, 5, 5, .u 4, .ro, false, 0, none, [.stat]⟩]

/-- Entries of a path block (R421). -/
def rowsPath : List Row :=
  rowsPath0 ++ rowsPath1 ++ rowsPath2 ++ rowsPath3 ++ rowsPath4

def rowsJunction0 : List Row := [
  ⟨0x2800, 0, 0, .u 1, .ro, false, 8, none, []⟩,
  ⟨0x2800, 1, 8, .enum [0, 1, 2, 3], .rwd, true, 0, none, []⟩,
  ⟨0x2801, 0, 0, .u 1, .ro, false, 8, none, []⟩,
  ⟨0x2801, 1, 8, .enum [0, 1, 2, 3], .rwd, true, 0, none, []⟩,
  ⟨0x2802, 0, 0, .u 1, .ro, false, 8, none, []⟩,
  ⟨0x2802, 1, 8, .cdb, .rwd, true, 0xfda8, some (-4000, 0), []⟩,
  ⟨0x2803, 0, 0, .u 1, .ro, false, 8, none, []⟩,
  ⟨0x2803, 1, 8, .u 1, .ro, false, 0, none, []⟩,
  ⟨0x2804, 0, 0, .u 1, .ro, false, 8, none, []⟩,
  ⟨0x2804, 1, 8, .u 1, .ro, false, 0, none, []⟩,
  ⟨0x2805, 0, 0, .u 1, .ro, false, 8, none, []⟩,
  ⟨0x2805, 1, 8, .u 4, .ro, false, 0, none, [.stat]⟩,
  ⟨0x2806, 0, 0, .u 1, .ro, false, 8, none, []⟩,
  ⟨0x2806, 1, 8, .u 4, .ro, false, 0, none, [.stat]⟩,
  ⟨0x2807, 0, 0, .u 1, .ro, false, 3, none, []⟩,
  ⟨0x2807, 1, 3, .u 4, .ro, false, 0, none, [.stat]⟩,
  ⟨0x2808, 0, 0, .u 1, .ro, false, 0, none, []⟩,
  ⟨0x2809, 0, 0, .u 1, .ro, false, 2, none, []⟩,
  ⟨0x2809, 1, 1, .u 1, .ro, false, 255, none, []⟩,
  ⟨0x2809, 2, 2, .u 1, .ro, false, 0, none, []⟩,
  ⟨0x280A, 0, 0, .u 4, .ro, false, 0, none, []⟩,
  ⟨0x280B, 0, 0, .u 4, .ro, false, 0, none, []⟩,
  ⟨0x2880, 0, 0, .u 1, .ro, false, 32, none, []⟩,
  ⟨0x2880, 1, 32, .s 2, .ro, false, 0x8000, none, []⟩,
  ⟨0x2881, 0, 0, .u 1, .ro, false, 32, none, []⟩,
  ⟨0x2881, 1, 32, .s 2, .ro, false, 0x8000, none, []⟩,
  ⟨0x2882, 0, 0, .u 1, .ro, false, 32, none, []⟩,
  ⟨0x2882, 1, 32, .u 4, .ro, false, 0, none, [.stat]⟩,
  ⟨0x2883, 0, 0, .u 1, .ro, false, 11, none, []⟩,
  ⟨0x2883, 1, 11, .u 4, .ro, false, 0, none, [.stat]⟩,
  ⟨0x2884, 0, 0, .u 4, .ro, false, 0, none, []⟩,
  ⟨0x2885, 0, 0, .s 2, .rw, false, 4, some (0, 64), []⟩,
  ⟨0x2886, 0, 0, .u 1, .cmd, false, 0, none, []⟩,
  ⟨0x2887, 0, 0, .u 1, .ro, false, 8, none, []⟩,
  ⟨0x2887, 1, 8, .u 4, .ro, false, 0, none, [.stat]⟩,
  ⟨0x2900, 0, 0, .u 2, .rw, false, 0, some (0, 2047), [.notSaved]⟩,
  ⟨0x2901, 0, 0, .u 1, .ro, false, 14, none, []⟩,
  ⟨0x2901, 1, 1, .enum [0, 1, 2, 3, 4], .ro, false, 0, none, []⟩,
  ⟨0x2901, 2, 2, .u 1, .ro, false, 0, none, []⟩,
  ⟨0x2901, 3, 3, .u 1, .ro, false, 0, none, []⟩]

def rowsJunction1 : List Row := [
  ⟨0x2901, 4, 4, .u 1, .ro, false, 0, none, []⟩,
  ⟨0x2901, 5, 5, .bool, .ro, false, 0, none, []⟩,
  ⟨0x2901, 6, 6, .u 1, .ro, false, 0, none, []⟩,
  ⟨0x2901, 7, 7, .s 4, .ro, false, 0, none, []⟩,
  ⟨0x2901, 8, 8, .s 4, .ro, false, 0, none, []⟩,
  ⟨0x2901, 9, 9, .s 4, .ro, false, 0, none, []⟩,
  ⟨0x2901, 10, 10, .s 4, .ro, false, 0, none, []⟩,
  ⟨0x2901, 11, 11, .u 2, .ro, false, 0, none, []⟩,
  ⟨0x2901, 12, 12, .u 2, .ro, false, 0, none, []⟩,
  ⟨0x2901, 13, 13, .u 4, .ro, false, 0, none, []⟩,
  ⟨0x2901, 14, 14, .u 4, .ro, false, 0, none, []⟩,
  ⟨0x2902, 0, 0, .u 1, .ro, false, 14, none, []⟩,
  ⟨0x2902, 1, 14, .oct 16, .ro, false, 0, none, []⟩,
  ⟨0x2903, 0, 0, .u 1, .ro, false, 3, none, []⟩,
  ⟨0x2903, 1, 1, .enum [0, 1], .ro, false, 0, none, []⟩,
  ⟨0x2903, 2, 2, .u 2, .ro, false, 1, none, []⟩,
  ⟨0x2903, 3, 3, .u 4, .ro, false, 0, none, []⟩,
  ⟨0x2A00, 0, 0, .u 1, .ro, false, 8, none, []⟩,
  ⟨0x2A00, 1, 8, .cdb, .ro, false, 0x8000, none, []⟩,
  ⟨0x2A01, 0, 0, .u 1, .ro, false, 8, none, []⟩,
  ⟨0x2A01, 1, 8, .cdb, .ro, false, 0x8000, none, []⟩,
  ⟨0x2A02, 0, 0, .u 1, .cmd, false, 0, none, []⟩,
  ⟨0x2A03, 0, 0, .u 4, .ro, false, 0, none, []⟩,
  ⟨0x2A04, 0, 0, .u 1, .ro, false, 0, none, []⟩,
  ⟨0x2A10, 0, 0, .u 1, .ro, false, 12, none, []⟩,
  ⟨0x2A10, 1, 1, .u 2, .rw, false, 0, none, [.notSaved]⟩,
  ⟨0x2A10, 2, 2, .u 4, .rw, false, 0, none, [.notSaved]⟩,
  ⟨0x2A10, 3, 3, .enum [1, 2, 3, 4], .rw, false, 4, none, [.notSaved]⟩,
  ⟨0x2A10, 4, 4, .enum [0, 1, 2, 3, 4, 5], .rw, false, 0, none, [.notSaved]⟩,
  ⟨0x2A10, 5, 5, .u 8, .rw, false, 0, none, [.notSaved]⟩,
  ⟨0x2A10, 6, 6, .cdb, .rw, false, 0, none, [.notSaved]⟩,
  ⟨0x2A10, 7, 7, .u 2, .rw, false, 0, none, [.notSaved]⟩,
  ⟨0x2A10, 8, 8, .u 1, .cmd, false, 0, none, []⟩,
  ⟨0x2A10, 9, 9, .enum [0, 1, 2, 3, 4, 5, 6], .ro, false, 0, none, []⟩,
  ⟨0x2A10, 10, 10, .u 8, .ro, false, 0, none, []⟩,
  ⟨0x2A10, 11, 11, .u 8, .ro, false, 0, none, []⟩,
  ⟨0x2A10, 12, 12, .u 2, .ro, false, 0, none, []⟩,
  ⟨0x2A30, 0, 0, .u 1, .ro, false, 128, none, []⟩,
  ⟨0x2A30, 1, 128, .oct 4096, .ro, false, 0, none, [.hspiOnly]⟩,
  ⟨0x3000, 0, 0, .u 1, .ro, false, 0, none, []⟩]

def rowsJunction2 : List Row := [
  ⟨0x3001, 0, 0, .u 1, .ro, false, 0, none, []⟩,
  ⟨0x3002, 0, 0, .u 1, .ro, false, 64, none, []⟩,
  ⟨0x3002, 1, 64, .u 1, .ro, false, 255, none, []⟩,
  ⟨0x3003, 0, 0, .u 1, .ro, false, 0, none, []⟩,
  ⟨0x3004, 0, 0, .u 1, .rw, false, 0, some (0, 31), [.notSaved]⟩,
  ⟨0x3005, 0, 0, .u 1, .ro, false, 64, none, []⟩,
  ⟨0x3005, 1, 64, .oct 2048, .ro, false, 0, none, [.hspiOnly]⟩,
  ⟨0x3006, 0, 0, .u 4, .ro, false, 0, none, []⟩,
  ⟨0x3007, 0, 0, .u 4, .ro, false, 0, none, [.persistent]⟩]

/-- Entries of Junction, slack, catalogue, measurement, captures and canceller pool (R422, R423). -/
def rowsJunction : List Row :=
  rowsJunction0 ++ rowsJunction1 ++ rowsJunction2

def rowsGuard0 : List Row := [
  ⟨0x3100, 0, 0, .u 4, .ro, false, 0, none, []⟩,
  ⟨0x3101, 0, 0, .cdb, .ro, false, 0, none, []⟩,
  ⟨0x3102, 0, 0, .cdb, .ro, false, 0, none, []⟩,
  ⟨0x3103, 0, 0, .u 1, .ro, false, 4, none, []⟩,
  ⟨0x3103, 1, 1, .enum [0, 1], .rwd, true, 0, none, []⟩,
  ⟨0x3103, 2, 2, .u 4, .rw, false, 1024, some (64, 491520), []⟩,
  ⟨0x3103, 3, 3, .enum [0, 1, 2], .ro, false, 0, none, []⟩,
  ⟨0x3103, 4, 4, .u 4, .ro, false, 0, none, [.stat]⟩,
  ⟨0x3104, 0, 0, .u 1, .ro, false, 4, none, []⟩,
  ⟨0x3104, 1, 1, .u 1, .cmd, false, 0, none, []⟩,
  ⟨0x3104, 2, 2, .enum [0, 1, 2], .ro, false, 0, none, []⟩,
  ⟨0x3104, 3, 3, .u 2, .ro, false, 0, none, []⟩,
  ⟨0x3104, 4, 4, .u 2, .ro, false, 0, none, []⟩,
  ⟨0x3110, 0, 0, .u 1, .ro, false, 6, none, []⟩,
  ⟨0x3110, 1, 1, .u 1, .rwd, true, 255, none, []⟩,
  ⟨0x3110, 2, 2, .u 1, .rwd, true, 255, none, []⟩,
  ⟨0x3110, 3, 3, .u 2, .rw, false, 60, some (1, 3600), []⟩,
  ⟨0x3110, 4, 4, .cdb, .rw, false, 0, some (-1000, 0), []⟩,
  ⟨0x3110, 5, 5, .u 4, .ro, false, 0, none, []⟩,
  ⟨0x3110, 6, 6, .u 4, .ro, false, 0, none, [.stat]⟩,
  ⟨0x3120, 0, 0, .u 1, .ro, false, 4, none, []⟩,
  ⟨0x3120, 1, 1, .u 1, .rw, false, 4, some (1, 255), []⟩,
  ⟨0x3120, 2, 2, .u 1, .rw, false, 2, some (1, 16), []⟩,
  ⟨0x3120, 3, 3, .u 2, .rw, false, 100, some (1, 60000), []⟩,
  ⟨0x3120, 4, 4, .cdb, .rw, false, 0xfda8, none, []⟩,
  ⟨0x3121, 0, 0, .u 1, .ro, false, 8, none, []⟩,
  ⟨0x3121, 1, 8, .enum [0, 1, 2], .ro, false, 0, none, []⟩,
  ⟨0x3122, 0, 0, .u 1, .ro, false, 8, none, []⟩,
  ⟨0x3122, 1, 8, .u 4, .ro, false, 0, none, [.stat]⟩,
  ⟨0x3140, 0, 0, .u 1, .ro, false, 11, none, []⟩,
  ⟨0x3140, 1, 1, .bool, .rw, false, 0, none, []⟩,
  ⟨0x3140, 2, 2, .u 1, .rwd, true, 255, none, []⟩,
  ⟨0x3140, 3, 3, .u 1, .rwd, true, 255, none, []⟩,
  ⟨0x3140, 4, 4, .u 2, .rw, false, 15, none, []⟩,
  ⟨0x3140, 5, 5, .u 2, .rw, false, 0, none, []⟩,
  ⟨0x3140, 6, 6, .u 2, .rw, false, 0, none, []⟩,
  ⟨0x3140, 7, 7, .cdb, .rw, false, 0, none, []⟩,
  ⟨0x3140, 8, 8, .cdb, .rw, false, 600, none, []⟩,
  ⟨0x3140, 9, 9, .cdb, .rw, false, 300, none, []⟩,
  ⟨0x3140, 10, 10, .cdb, .ro, false, 0x8000, none, []⟩]

def rowsGuard1 : List Row := [
  ⟨0x3140, 11, 11, .u 4, .ro, false, 0, none, [.stat]⟩,
  ⟨0x3180, 0, 0, .u 1, .ro, false, 7, none, []⟩,
  ⟨0x3180, 1, 7, .u 4, .ro, false, 0, none, [.stat]⟩]

/-- Entries of the Guard (R424). -/
def rowsGuard : List Row :=
  rowsGuard0 ++ rowsGuard1

def rowsFrontEnd0 : List Row := [
  ⟨0x3200, 0, 0, .u 4, .ro, false, 0, none, []⟩,
  ⟨0x3201, 0, 0, .u 1, .ro, false, 9, none, []⟩,
  ⟨0x3201, 1, 1, .enum [0, 1, 2], .rwd, true, 0, none, []⟩,
  ⟨0x3201, 2, 2, .enum [0, 1, 2], .rwd, true, 1, none, []⟩,
  ⟨0x3201, 3, 3, .s 4, .rw, true, 0, none, []⟩,
  ⟨0x3201, 4, 4, .u 2, .rw, false, 0xffff, none, []⟩,
  ⟨0x3201, 5, 5, .enum [0, 1, 2, 3, 4, 5], .rw, false, 2, none, []⟩,
  ⟨0x3201, 6, 6, .u 1, .rw, false, 8, some (2, 64), []⟩,
  ⟨0x3201, 7, 7, .u 1, .rw, false, 4, some (1, 64), []⟩,
  ⟨0x3201, 8, 8, .u 2, .rw, false, 10, some (1, 60), []⟩,
  ⟨0x3201, 9, 9, .s 4, .rwd, true, 0, some (-4915200, 4915200), []⟩,
  ⟨0x3202, 0, 0, .enum [0, 1, 2, 3, 4, 5], .ro, false, 0, none, []⟩,
  ⟨0x3203, 0, 0, .u 1, .ro, false, 8, none, []⟩,
  ⟨0x3203, 1, 1, .u 8, .ro, false, 0, none, []⟩,
  ⟨0x3203, 2, 2, .s 4, .ro, false, 0x80000000, none, []⟩,
  ⟨0x3203, 3, 3, .u 4, .ro, false, 0, none, []⟩,
  ⟨0x3203, 4, 4, .u 2, .ro, false, 0xffff, none, []⟩,
  ⟨0x3203, 5, 5, .u 2, .ro, false, 0xffff, none, []⟩,
  ⟨0x3203, 6, 6, .u 4, .ro, false, 0, none, [.stat]⟩,
  ⟨0x3203, 7, 7, .u 4, .ro, false, 0, none, [.stat]⟩,
  ⟨0x3203, 8, 8, .u 4, .ro, false, 0, none, [.stat]⟩,
  ⟨0x3204, 0, 0, .u 1, .ro, false, 2, none, []⟩,
  ⟨0x3204, 1, 1, .u 1, .ro, false, 0, none, []⟩,
  ⟨0x3204, 2, 2, .u 1, .ro, false, 255, none, []⟩,
  ⟨0x3210, 0, 0, .u 1, .ro, false, 2, none, []⟩,
  ⟨0x3210, 1, 1, .u 4, .rw, true, 0, none, []⟩,
  ⟨0x3210, 2, 2, .u 1, .ro, false, 0, none, []⟩,
  ⟨0x3211, 0, 0, .u 1, .ro, false, 64, none, []⟩,
  ⟨0x3211, 1, 64, .oct 8, .rw, true, 0xff00000000, none, []⟩,
  ⟨0x3212, 0, 0, .u 1, .ro, false, 16, none, []⟩,
  ⟨0x3212, 1, 16, .u 4, .rw, true, 0, none, []⟩,
  ⟨0x3220, 0, 0, .u 1, .ro, false, 8, none, []⟩,
  ⟨0x3220, 1, 1, .enum [0, 1, 2, 3, 4, 5], .rwd, true, 0, none, []⟩,
  ⟨0x3220, 2, 2, .u 1, .rwd, true, 0, none, []⟩,
  ⟨0x3220, 3, 3, .s 2, .rw, true, 0, some (-1023, 1023), []⟩,
  ⟨0x3220, 4, 4, .s 2, .rw, true, 0, some (-1023, 1023), []⟩,
  ⟨0x3220, 5, 5, .bool, .rwd, true, 0, none, []⟩,
  ⟨0x3220, 6, 6, .bool, .rwd, true, 0, none, []⟩,
  ⟨0x3220, 7, 7, .bool, .ro, false, 0, none, []⟩,
  ⟨0x3220, 8, 8, .u 4, .ro, false, 0, none, [.stat]⟩]

def rowsFrontEnd1 : List Row := [
  ⟨0x3240, 0, 0, .u 1, .ro, false, 7, none, []⟩,
  ⟨0x3240, 1, 1, .u 1, .rwd, true, 255, none, []⟩,
  ⟨0x3240, 2, 2, .u 1, .rwd, true, 255, none, []⟩,
  ⟨0x3240, 3, 3, .s 2, .rw, true, 0, some (-1023, 1023), []⟩,
  ⟨0x3240, 4, 4, .s 2, .rw, true, 0, some (-1023, 1023), []⟩,
  ⟨0x3240, 5, 5, .bool, .ro, false, 0, none, []⟩,
  ⟨0x3240, 6, 6, .u 4, .ro, false, 0, none, []⟩,
  ⟨0x3240, 7, 7, .u 4, .ro, false, 0, none, []⟩,
  ⟨0x3250, 0, 0, .u 1, .ro, false, 12, none, []⟩,
  ⟨0x3250, 1, 1, .u 1, .rwd, true, 255, none, []⟩,
  ⟨0x3250, 2, 2, .u 1, .rwd, true, 255, none, []⟩,
  ⟨0x3250, 3, 3, .enum [0, 1, 2], .rwd, true, 0, none, []⟩,
  ⟨0x3250, 4, 4, .s 4, .rw, true, 0, none, []⟩,
  ⟨0x3250, 5, 5, .cdb, .rw, false, 100, some (10, 1000), []⟩,
  ⟨0x3250, 6, 6, .u 1, .rw, false, 2, some (1, 16), []⟩,
  ⟨0x3250, 7, 7, .s 2, .rw, true, 0, some (-1023, 1023), []⟩,
  ⟨0x3250, 8, 8, .u 1, .ro, false, 0, none, []⟩,
  ⟨0x3250, 9, 9, .enum [0, 1], .ro, false, 0, none, []⟩,
  ⟨0x3250, 10, 10, .cdb, .ro, false, 0x8000, none, []⟩,
  ⟨0x3250, 11, 11, .cdb, .ro, false, 0x8000, none, []⟩,
  ⟨0x3250, 12, 12, .u 4, .ro, false, 0, none, [.stat]⟩,
  ⟨0x3260, 0, 0, .u 1, .ro, false, 7, none, []⟩,
  ⟨0x3260, 1, 1, .bool, .rwd, true, 0, none, []⟩,
  ⟨0x3260, 2, 2, .u 1, .rwd, true, 0, none, []⟩,
  ⟨0x3260, 3, 3, .u 2, .rw, false, 100, some (1, 60000), []⟩,
  ⟨0x3260, 4, 4, .enum [0, 1, 2, 3], .ro, false, 0, none, []⟩,
  ⟨0x3260, 5, 5, .u 4, .ro, false, 0, none, [.stat]⟩,
  ⟨0x3260, 6, 6, .u 4, .ro, false, 0, none, [.stat]⟩,
  ⟨0x3260, 7, 7, .u 4, .ro, false, 0, none, []⟩]

/-- Entries of the front-end (R425). -/
def rowsFrontEnd : List Row :=
  rowsFrontEnd0 ++ rowsFrontEnd1

def rowsSlot0 : List Row := [
  ⟨0x4000, 0, 0, .u 1, .ro, false, 10, none, []⟩,
  ⟨0x4000, 1, 1, .enum [0, 1, 2, 3, 4, 5, 6], .rw, true, 0, none, []⟩,
  ⟨0x4000, 2, 2, .bool, .rw, true, 0, none, []⟩,
  ⟨0x4000, 3, 3, .u 2, .rw, true, 1, some (1, 65535), []⟩,
  ⟨0x4000, 4, 4, .u 2, .rw, true, 0, none, []⟩,
  ⟨0x4000, 5, 5, .u 2, .rw, true, 0, none, []⟩,
  ⟨0x4000, 6, 6, .u 2, .rw, true, 0, none, []⟩,
  ⟨0x4000, 7, 7, .u 4, .rw, true, 0, none, []⟩,
  ⟨0x4000, 8, 8, .s 4, .rw, false, 0, none, []⟩,
  ⟨0x4000, 9, 9, .u 2, .rw, false, 0, none, []⟩,
  ⟨0x4000, 10, 10, .u 1, .rw, true, 1, some (1, 4), []⟩,
  ⟨0x4001, 0, 0, .u 1, .ro, false, 58, none, []⟩,
  ⟨0x4001, 1, 1, .s 4, .rw, true, 0, none, []⟩,
  ⟨0x4001, 2, 2, .s 1, .rw, true, 0, some (-31, 31), []⟩,
  ⟨0x4001, 3, 3, .s 4, .rw, true, 0, none, []⟩,
  ⟨0x4001, 4, 4, .s 1, .rw, true, 0, some (-31, 31), []⟩,
  ⟨0x4001, 5, 5, .s 4, .rw, true, 0, none, []⟩,
  ⟨0x4001, 6, 6, .s 1, .rw, true, 0, some (-31, 31), []⟩,
  ⟨0x4001, 7, 7, .s 4, .rw, true, 0, none, []⟩,
  ⟨0x4001, 8, 8, .s 1, .rw, true, 0, some (-31, 31), []⟩,
  ⟨0x4001, 9, 9, .s 4, .rw, true, 0, none, []⟩,
  ⟨0x4001, 10, 10, .s 1, .rw, true, 0, some (-31, 31), []⟩,
  ⟨0x4001, 11, 11, .s 4, .rw, true, 0, none, []⟩,
  ⟨0x4001, 12, 12, .s 1, .rw, true, 0, some (-31, 31), []⟩,
  ⟨0x4001, 13, 13, .s 4, .rw, true, 0, none, []⟩,
  ⟨0x4001, 14, 14, .s 1, .rw, true, 0, some (-31, 31), []⟩,
  ⟨0x4001, 15, 15, .s 4, .rw, true, 0, none, []⟩,
  ⟨0x4001, 16, 16, .s 1, .rw, true, 0, some (-31, 31), []⟩,
  ⟨0x4001, 17, 17, .s 4, .rw, true, 0, none, []⟩,
  ⟨0x4001, 18, 18, .s 1, .rw, true, 0, some (-31, 31), []⟩,
  ⟨0x4001, 19, 19, .s 4, .rw, true, 0, none, []⟩,
  ⟨0x4001, 20, 20, .s 1, .rw, true, 0, some (-31, 31), []⟩,
  ⟨0x4001, 21, 21, .s 4, .rw, true, 0, none, []⟩,
  ⟨0x4001, 22, 22, .s 1, .rw, true, 0, some (-31, 31), []⟩,
  ⟨0x4001, 23, 23, .s 4, .rw, true, 0, none, []⟩,
  ⟨0x4001, 24, 24, .s 1, .rw, true, 0, some (-31, 31), []⟩,
  ⟨0x4001, 25, 25, .s 4, .rw, true, 0, none, []⟩,
  ⟨0x4001, 26, 26, .s 1, .rw, true, 0, some (-31, 31), []⟩,
  ⟨0x4001, 27, 27, .s 4, .rw, true, 0, none, []⟩,
  ⟨0x4001, 28, 28, .s 1, .rw, true, 0, some (-31, 31), []⟩]

def rowsSlot1 : List Row := [
  ⟨0x4001, 29, 29, .s 4, .rw, true, 0, none, []⟩,
  ⟨0x4001, 30, 30, .s 1, .rw, true, 0, some (-31, 31), []⟩,
  ⟨0x4001, 31, 31, .s 4, .rw, true, 0, none, []⟩,
  ⟨0x4001, 32, 32, .s 1, .rw, true, 0, some (-31, 31), []⟩,
  ⟨0x4001, 33, 33, .s 4, .rw, true, 0, none, []⟩,
  ⟨0x4001, 34, 34, .s 1, .rw, true, 0, some (-31, 31), []⟩,
  ⟨0x4001, 35, 35, .s 4, .rw, true, 0, none, []⟩,
  ⟨0x4001, 36, 36, .s 1, .rw, true, 0, some (-31, 31), []⟩,
  ⟨0x4001, 37, 37, .s 4, .rw, true, 0, none, []⟩,
  ⟨0x4001, 38, 38, .s 1, .rw, true, 0, some (-31, 31), []⟩,
  ⟨0x4001, 39, 39, .s 4, .rw, true, 0, none, []⟩,
  ⟨0x4001, 40, 40, .s 1, .rw, true, 0, some (-31, 31), []⟩,
  ⟨0x4001, 41, 41, .s 4, .rw, true, 0, none, []⟩,
  ⟨0x4001, 42, 42, .s 1, .rw, true, 0, some (-31, 31), []⟩,
  ⟨0x4001, 43, 43, .s 4, .rw, true, 0, none, []⟩,
  ⟨0x4001, 44, 44, .s 1, .rw, true, 0, some (-31, 31), []⟩,
  ⟨0x4001, 45, 45, .s 4, .rw, true, 0, none, []⟩,
  ⟨0x4001, 46, 46, .s 1, .rw, true, 0, some (-31, 31), []⟩,
  ⟨0x4001, 47, 47, .s 4, .rw, true, 0, none, []⟩,
  ⟨0x4001, 48, 48, .s 1, .rw, true, 0, some (-31, 31), []⟩,
  ⟨0x4001, 49, 49, .s 4, .rw, true, 0, none, []⟩,
  ⟨0x4001, 50, 50, .s 1, .rw, true, 0, some (-31, 31), []⟩,
  ⟨0x4001, 51, 51, .s 4, .rw, true, 0, none, []⟩,
  ⟨0x4001, 52, 52, .s 1, .rw, true, 0, some (-31, 31), []⟩,
  ⟨0x4001, 53, 53, .s 4, .rw, true, 0, none, []⟩,
  ⟨0x4001, 54, 54, .s 1, .rw, true, 0, some (-31, 31), []⟩,
  ⟨0x4001, 55, 55, .s 4, .rw, true, 0, none, []⟩,
  ⟨0x4001, 56, 56, .s 1, .rw, true, 0, some (-31, 31), []⟩,
  ⟨0x4001, 57, 57, .s 4, .rw, true, 0, none, []⟩,
  ⟨0x4001, 58, 58, .s 1, .rw, true, 0, some (-31, 31), []⟩,
  ⟨0x4002, 0, 0, .u 1, .ro, false, 7, none, []⟩,
  ⟨0x4002, 1, 1, .s 4, .rw, false, 0x80000000, none, []⟩,
  ⟨0x4002, 2, 2, .s 4, .rw, false, 0x7fffffff, none, []⟩,
  ⟨0x4002, 3, 3, .s 4, .rw, false, 0, some (0, 2147483647), []⟩,
  ⟨0x4002, 4, 4, .s 4, .rw, false, 0, none, []⟩,
  ⟨0x4002, 5, 5, .enum [0, 1], .rw, false, 1, none, []⟩,
  ⟨0x4002, 6, 6, .u 1, .rw, false, 3, some (1, 255), []⟩,
  ⟨0x4002, 7, 7, .u 2, .rw, false, 16, none, []⟩,
  ⟨0x4003, 0, 0, .u 1, .ro, false, 3, none, []⟩,
  ⟨0x4003, 1, 1, .enum [0, 1, 2, 3, 4, 5, 6, 7, 255], .rw, true, 255, none, []⟩]

def rowsSlot2 : List Row := [
  ⟨0x4003, 2, 2, .s 4, .rw, true, 0, none, []⟩,
  ⟨0x4003, 3, 3, .s 1, .rw, true, 0, some (-31, 31), []⟩,
  ⟨0x4004, 0, 0, .u 1, .ro, false, 11, none, []⟩,
  ⟨0x4004, 1, 1, .enum [0, 1, 2, 3, 4, 5, 6], .ro, false, 0, none, []⟩,
  ⟨0x4004, 2, 2, .s 4, .ro, false, 0, none, []⟩,
  ⟨0x4004, 3, 3, .s 4, .ro, false, 0, none, []⟩,
  ⟨0x4004, 4, 4, .s 4, .ro, false, 0, none, []⟩,
  ⟨0x4004, 5, 5, .u 2, .ro, false, 0, none, []⟩,
  ⟨0x4004, 6, 6, .u 4, .ro, false, 0, none, []⟩,
  ⟨0x4004, 7, 7, .u 4, .ro, false, 0, none, [.stat]⟩,
  ⟨0x4004, 8, 8, .u 4, .ro, false, 0, none, [.stat]⟩,
  ⟨0x4004, 9, 9, .u 4, .ro, false, 0, none, [.stat]⟩,
  ⟨0x4004, 10, 10, .u 2, .ro, false, 0, none, []⟩,
  ⟨0x4004, 11, 11, .u 4, .ro, false, 0, none, [.stat]⟩,
  ⟨0x4005, 0, 0, .u 1, .ro, false, 4, none, []⟩,
  ⟨0x4005, 1, 4, .s 8, .ro, false, 0, none, []⟩]

/-- Entries of a Signal Box slot (R426). -/
def rowsSlot : List Row :=
  rowsSlot0 ++ rowsSlot1 ++ rowsSlot2

def rowsAxis0 : List Row := [
  ⟨0x4300, 0, 0, .u 1, .ro, false, 32, none, []⟩,
  ⟨0x4300, 1, 32, .oct 128, .rw, true, 0, none, []⟩,
  ⟨0x4310, 0, 0, .u 1, .ro, false, 3, none, []⟩,
  ⟨0x4310, 1, 1, .s 4, .rw, true, 0, none, []⟩,
  ⟨0x4310, 2, 2, .u 1, .rw, true, 0, some (0, 31), []⟩,
  ⟨0x4310, 3, 3, .enum [0, 1], .rw, true, 0, none, []⟩,
  ⟨0x4380, 0, 0, .u 1, .ro, false, 0, none, []⟩,
  ⟨0x4381, 0, 0, .u 4, .rwd, true, 0x1700, none, []⟩,
  ⟨0x4382, 0, 0, .u 2, .ro, false, 0, none, []⟩,
  ⟨0x4383, 0, 0, .u 2, .ro, false, 2936, none, []⟩,
  ⟨0x4384, 0, 0, .u 4, .ro, false, 0, none, [.stat]⟩,
  ⟨0x4385, 0, 0, .u 1, .ro, false, 0, none, []⟩,
  ⟨0x4386, 0, 0, .u 1, .ro, false, 2, none, []⟩,
  ⟨0x4386, 1, 1, .u 1, .ro, false, 0, none, []⟩,
  ⟨0x4386, 2, 2, .u 1, .ro, false, 255, none, []⟩,
  ⟨0x4800, 0, 0, .u 1, .ro, false, 17, none, []⟩,
  ⟨0x4800, 1, 1, .bool, .rwd, true, 0, none, []⟩,
  ⟨0x4800, 2, 2, .u 4, .rwd, true, 0x4e20, some (20000, 100000), []⟩,
  ⟨0x4800, 3, 3, .u 1, .rwd, true, 50, some (0, 255), []⟩,
  ⟨0x4800, 4, 4, .enum [0, 1], .rwd, true, 0, none, []⟩,
  ⟨0x4800, 5, 5, .u 2, .rw, false, 0xffff, none, []⟩,
  ⟨0x4800, 6, 6, .u 4, .rwd, true, 0, none, []⟩,
  ⟨0x4800, 7, 7, .u 2, .rwd, true, 32, some (4, 1024), []⟩,
  ⟨0x4800, 8, 8, .s 4, .rw, false, 0, none, []⟩,
  ⟨0x4800, 9, 9, .u 2, .rw, false, 0, none, []⟩,
  ⟨0x4800, 10, 10, .u 2, .rw, false, 500, some (1, 60000), []⟩,
  ⟨0x4800, 11, 11, .enum [0, 1, 2, 3, 4, 5, 6, 7, 255], .rw, true, 255, none, []⟩,
  ⟨0x4800, 12, 12, .s 4, .rw, true, 0, none, []⟩,
  ⟨0x4800, 13, 13, .s 1, .rw, true, 0, some (-31, 31), []⟩,
  ⟨0x4800, 14, 14, .enum [0, 1, 2, 3, 4, 5, 6, 7, 255], .rw, true, 255, none, []⟩,
  ⟨0x4800, 15, 15, .s 4, .rw, true, 0, none, []⟩,
  ⟨0x4800, 16, 16, .s 1, .rw, true, 0, some (-31, 31), []⟩,
  ⟨0x4800, 17, 17, .u 2, .rw, false, 0, none, []⟩,
  ⟨0x4801, 0, 0, .u 1, .ro, false, 8, none, []⟩,
  ⟨0x4801, 1, 1, .s 4, .ro, false, 0, none, []⟩,
  ⟨0x4801, 2, 2, .s 4, .ro, false, 0, none, []⟩,
  ⟨0x4801, 3, 3, .enum [0, 1, 2, 3], .ro, false, 0, none, []⟩,
  ⟨0x4801, 4, 4, .enum [0, 1, 2, 3], .ro, false, 0, none, []⟩,
  ⟨0x4801, 5, 5, .s 4, .ro, false, 0, none, []⟩,
  ⟨0x4801, 6, 6, .s 4, .ro, false, 0, none, []⟩]

def rowsAxis1 : List Row := [
  ⟨0x4801, 7, 7, .u 4, .ro, false, 0, none, [.stat]⟩,
  ⟨0x4801, 8, 8, .u 1, .cmd, false, 0, none, []⟩]

/-- Entries of Signal Box tables, globals and axes (R426). -/
def rowsAxis : List Row :=
  rowsAxis0 ++ rowsAxis1

def rowsLink0 : List Row := [
  ⟨0x5000, 0, 0, .u 4, .ro, false, 0, none, []⟩,
  ⟨0x5001, 0, 0, .enum [0, 1, 2], .ro, false, 0, none, []⟩,
  ⟨0x5002, 0, 0, .u 1, .ro, false, 0, none, []⟩,
  ⟨0x5003, 0, 0, .u 4, .ro, false, 0, none, []⟩,
  ⟨0x5004, 0, 0, .u 1, .cmd, false, 0, none, []⟩,
  ⟨0x5005, 0, 0, .u 8, .ro, false, 0, none, []⟩,
  ⟨0x5006, 0, 0, .oct 16, .ro, false, 0, none, []⟩,
  ⟨0x5007, 0, 0, .u 2, .ro, false, 0, none, []⟩,
  ⟨0x5008, 0, 0, .enum [0, 1, 2, 3, 4, 5, 6], .ro, false, 0, none, []⟩,
  ⟨0x5010, 0, 0, .u 1, .ro, false, 3, none, []⟩,
  ⟨0x5010, 1, 1, .bool, .rw, false, 1, none, []⟩,
  ⟨0x5010, 2, 2, .u 2, .rw, false, 60, some (10, 3600), []⟩,
  ⟨0x5010, 3, 3, .u 2, .ro, false, 0, none, []⟩,
  ⟨0x5020, 0, 0, .u 1, .ro, false, 8, none, []⟩,
  ⟨0x5020, 1, 8, .u 4, .ro, false, 0, none, [.stat]⟩,
  ⟨0x5030, 0, 0, .u 1, .ro, false, 6, none, []⟩,
  ⟨0x5030, 1, 1, .cdb, .rw, false, 150, some (10, 600), []⟩,
  ⟨0x5030, 2, 2, .cdb, .rw, false, 200, some (10, 1000), []⟩,
  ⟨0x5030, 3, 3, .cdb, .rw, false, 100, some (10, 1000), []⟩,
  ⟨0x5030, 4, 4, .u 4, .rw, false, 4, some (1, 64), []⟩,
  ⟨0x5030, 5, 5, .u 1, .rw, false, 8, some (2, 64), []⟩,
  ⟨0x5030, 6, 6, .u 1, .rw, false, 3, some (0, 16), []⟩,
  ⟨0x5031, 0, 0, .u 1, .ro, false, 64, none, []⟩,
  ⟨0x5031, 1, 64, .u 4, .rw, false, 0, none, []⟩,
  ⟨0x5032, 0, 0, .oct 16, .ro, false, 0, none, []⟩,
  ⟨0x5040, 0, 0, .u 1, .ro, false, 4, none, []⟩,
  ⟨0x5040, 1, 1, .u 1, .cmd, false, 0, none, []⟩,
  ⟨0x5040, 2, 2, .enum [0, 1, 2, 3, 4, 5, 6, 7], .ro, false, 0, none, []⟩,
  ⟨0x5040, 3, 3, .u 4, .ro, false, 0, none, []⟩,
  ⟨0x5040, 4, 4, .u 1, .ro, false, 0, none, []⟩,
  ⟨0x5041, 0, 0, .cdb, .ro, false, 0, none, []⟩,
  ⟨0x5100, 0, 0, .u 4, .ro, false, 0, none, []⟩,
  ⟨0x5101, 0, 0, .u 1, .ro, false, 6, none, []⟩,
  ⟨0x5101, 1, 1, .enum [0, 1], .rwd, true, 0, none, []⟩,
  ⟨0x5101, 2, 2, .u 2, .rwd, true, 0, some (0, 65534), []⟩,
  ⟨0x5101, 3, 3, .u 2, .rwd, true, 0, some (0, 65534), []⟩,
  ⟨0x5101, 4, 4, .bool, .rwd, true, 0, none, []⟩,
  ⟨0x5101, 5, 5, .u 2, .rw, false, 0xffff, some (1, 65535), []⟩,
  ⟨0x5101, 6, 6, .bool, .rwd, true, 0, none, []⟩,
  ⟨0x5102, 0, 0, .u 1, .ro, false, 0, none, []⟩]

def rowsLink1 : List Row := [
  ⟨0x5103, 0, 0, .u 1, .ro, false, 5, none, []⟩,
  ⟨0x5103, 1, 1, .u 2, .ro, false, 0, none, []⟩,
  ⟨0x5103, 2, 2, .u 2, .ro, false, 0, none, []⟩,
  ⟨0x5103, 3, 3, .u 2, .ro, false, 0xffff, none, []⟩,
  ⟨0x5103, 4, 4, .enum [0, 1, 2, 3], .ro, false, 0, none, []⟩,
  ⟨0x5103, 5, 5, .u 4, .ro, false, 0, none, []⟩,
  ⟨0x5110, 0, 0, .u 1, .ro, false, 16, none, []⟩,
  ⟨0x5110, 1, 1, .bool, .rwd, true, 1, none, []⟩,
  ⟨0x5110, 2, 2, .bool, .rwd, true, 0, none, []⟩,
  ⟨0x5110, 3, 3, .u 1, .ro, false, 0, none, []⟩,
  ⟨0x5110, 4, 4, .u 2, .ro, false, 0, none, []⟩,
  ⟨0x5110, 5, 5, .u 4, .ro, false, 0, none, []⟩,
  ⟨0x5110, 6, 6, .u 4, .ro, false, 0, none, []⟩,
  ⟨0x5110, 7, 7, .s 2, .rw, false, 0, none, []⟩,
  ⟨0x5110, 8, 8, .s 4, .ro, false, 0x80000000, none, []⟩,
  ⟨0x5110, 9, 9, .u 4, .ro, false, 0, none, [.stat]⟩,
  ⟨0x5110, 10, 10, .u 4, .ro, false, 0, none, [.stat]⟩,
  ⟨0x5110, 11, 11, .u 4, .ro, false, 0, none, [.stat]⟩,
  ⟨0x5110, 12, 12, .u 4, .ro, false, 0, none, [.stat]⟩,
  ⟨0x5110, 13, 13, .u 1, .ro, false, 0, none, []⟩,
  ⟨0x5110, 14, 14, .u 1, .ro, false, 0, none, []⟩,
  ⟨0x5110, 15, 15, .u 4, .ro, false, 0, none, []⟩,
  ⟨0x5110, 16, 16, .u 4, .ro, false, 0, none, [.stat]⟩,
  ⟨0x5120, 0, 0, .u 1, .ro, false, 48, none, []⟩,
  ⟨0x5120, 1, 48, .u 2, .rwd, true, 0, none, []⟩,
  ⟨0x5124, 0, 0, .u 1, .ro, false, 48, none, []⟩,
  ⟨0x5124, 1, 48, .u 2, .rwd, true, 0, none, []⟩,
  ⟨0x5128, 0, 0, .u 1, .ro, false, 48, none, []⟩,
  ⟨0x5128, 1, 48, .u 2, .rw, true, 0, none, []⟩,
  ⟨0x5130, 0, 0, .u 1, .ro, false, 7, none, []⟩,
  ⟨0x5130, 1, 1, .u 4, .ro, false, 0, none, []⟩,
  ⟨0x5130, 2, 2, .u 4, .ro, false, 0, none, []⟩,
  ⟨0x5130, 3, 3, .u 4, .ro, false, 0, none, []⟩,
  ⟨0x5130, 4, 4, .u 4, .ro, false, 0, none, [.stat]⟩,
  ⟨0x5130, 5, 5, .u 4, .ro, false, 0, none, [.stat]⟩,
  ⟨0x5130, 6, 6, .u 4, .ro, false, 0, none, [.stat]⟩,
  ⟨0x5130, 7, 7, .u 4, .ro, false, 0, none, [.stat]⟩,
  ⟨0x5131, 0, 0, .u 1, .ro, false, 3, none, []⟩,
  ⟨0x5131, 1, 3, .u 2, .ro, false, 0, none, []⟩,
  ⟨0x5140, 0, 0, .u 1, .ro, false, 3, none, []⟩]

def rowsLink2 : List Row := [
  ⟨0x5140, 1, 1, .enum [0, 1, 2, 3], .ro, false, 0, none, []⟩,
  ⟨0x5140, 2, 2, .u 4, .ro, false, 0, none, [.stat]⟩,
  ⟨0x5140, 3, 3, .u 4, .ro, false, 0, none, []⟩,
  ⟨0x5150, 0, 0, .u 1, .ro, false, 2, none, []⟩,
  ⟨0x5150, 1, 1, .u 1, .ro, false, 0, none, []⟩,
  ⟨0x5150, 2, 2, .u 1, .ro, false, 255, none, []⟩,
  ⟨0x5200, 0, 0, .oct 16, .ro, false, 0, none, []⟩,
  ⟨0x5201, 0, 0, .u 1, .ro, false, 2, none, []⟩,
  ⟨0x5201, 1, 1, .u 2, .ro, false, 0, none, [.notTwt]⟩,
  ⟨0x5201, 2, 2, .oct 768, .ro, false, 0, none, [.notTwt]⟩,
  ⟨0x5202, 0, 0, .u 1, .ro, false, 2, none, []⟩,
  ⟨0x5202, 1, 1, .u 2, .ro, false, 0, none, [.notTwt]⟩,
  ⟨0x5202, 2, 2, .oct 992, .ro, false, 0, none, [.notTwt]⟩,
  ⟨0x5203, 0, 0, .oct 65, .ro, false, 0, none, []⟩,
  ⟨0x5204, 0, 0, .oct 32, .ro, false, 0, none, []⟩,
  ⟨0x5205, 0, 0, .enum [0, 1], .ro, false, 0, none, []⟩,
  ⟨0x5210, 0, 0, .u 1, .ro, false, 2, none, []⟩,
  ⟨0x5210, 1, 1, .oct 32, .cmd, false, 0, none, []⟩,
  ⟨0x5210, 2, 2, .oct 72, .ro, false, 0, none, []⟩,
  ⟨0x5220, 0, 0, .oct 1, .ro, false, 0, none, []⟩,
  ⟨0x5221, 0, 0, .oct 1, .ro, false, 0, none, []⟩,
  ⟨0x5222, 0, 0, .oct 1, .ro, false, 0, none, []⟩,
  ⟨0x5223, 0, 0, .oct 1, .ro, false, 0, none, []⟩,
  ⟨0x5231, 0, 0, .enum [0, 1, 2, 3], .rw, false, 0, none, []⟩,
  ⟨0x5232, 0, 0, .u 2, .rw, false, 0, some (0, 4095), [.notSaved]⟩,
  ⟨0x5233, 0, 0, .oct 40, .rw, false, 0, none, [.persistent]⟩,
  ⟨0x5234, 0, 0, .u 2, .ro, false, 0, none, []⟩,
  ⟨0x5235, 0, 0, .oct 11, .cmd, false, 0, none, []⟩,
  ⟨0x5236, 0, 0, .u 1, .ro, false, 16, none, []⟩,
  ⟨0x5236, 1, 16, .oct 52, .ro, false, 0, none, []⟩]

/-- Entries of twin, Line and identity (R427). -/
def rowsLink : List Row :=
  rowsLink0 ++ rowsLink1 ++ rowsLink2

def rowsPhysical0 : List Row := [
  ⟨0x6000, 0, 0, .enum [0, 1, 2, 3], .ro, false, 0, none, []⟩,
  ⟨0x6001, 0, 0, .u 4, .ro, false, 0, none, []⟩,
  ⟨0x6002, 0, 0, .s 2, .ro, false, 0x8000, none, []⟩,
  ⟨0x6003, 0, 0, .u 1, .ro, false, 255, none, []⟩,
  ⟨0x6004, 0, 0, .u 1, .ro, false, 0, none, []⟩,
  ⟨0x6005, 0, 0, .u 4, .ro, false, 0, none, []⟩,
  ⟨0x6006, 0, 0, .u 4, .ro, false, 0, none, []⟩,
  ⟨0x6007, 0, 0, .u 4, .ro, false, 0, none, []⟩,
  ⟨0x6010, 0, 0, .u 1, .ro, false, 7, none, []⟩,
  ⟨0x6010, 1, 1, .s 2, .rw, false, 0x2710, none, []⟩,
  ⟨0x6010, 2, 2, .s 2, .rw, false, 0x2af8, some (8000, 11000), []⟩,
  ⟨0x6010, 3, 3, .s 2, .ro, false, 0x30d4, none, []⟩,
  ⟨0x6010, 4, 4, .s 2, .rw, false, 400, some (100, 1000), []⟩,
  ⟨0x6010, 5, 5, .u 2, .rw, false, 100, some (10, 10000), []⟩,
  ⟨0x6010, 6, 6, .u 2, .rw, false, 1000, some (100, 60000), []⟩,
  ⟨0x6010, 7, 7, .u 1, .rw, false, 6, some (0, 8), []⟩,
  ⟨0x6011, 0, 0, .u 1, .ro, false, 16, none, []⟩,
  ⟨0x6011, 1, 16, .s 2, .ro, false, 0x8000, none, []⟩,
  ⟨0x6012, 0, 0, .u 1, .ro, false, 16, none, []⟩,
  ⟨0x6012, 1, 16, .s 2, .ro, false, 0x8000, none, []⟩,
  ⟨0x6020, 0, 0, .u 1, .ro, false, 6, none, []⟩,
  ⟨0x6020, 1, 1, .bool, .rwd, true, 0, none, []⟩,
  ⟨0x6020, 2, 2, .bool, .rw, false, 0, none, []⟩,
  ⟨0x6020, 3, 3, .s 2, .rw, false, 0, some (-5000, 5000), []⟩,
  ⟨0x6020, 4, 4, .u 2, .rw, false, 0x2760, some (9500, 10500), []⟩,
  ⟨0x6020, 5, 5, .s 2, .ro, false, 0x8000, none, []⟩,
  ⟨0x6020, 6, 6, .enum [0, 1, 2, 3], .ro, false, 0, none, []⟩,
  ⟨0x6030, 0, 0, .u 1, .ro, false, 2, none, []⟩,
  ⟨0x6030, 1, 1, .u 1, .rw, false, 16, some (0, 19), []⟩,
  ⟨0x6030, 2, 2, .s 2, .ro, false, 0, none, []⟩,
  ⟨0x6031, 0, 0, .u 1, .ro, false, 64, none, []⟩,
  ⟨0x6031, 1, 64, .s 2, .rw, true, 0, none, []⟩,
  ⟨0x6040, 0, 0, .u 1, .ro, false, 4, none, []⟩,
  ⟨0x6040, 1, 3, .u 4, .ro, false, 0, none, [.stat]⟩,
  ⟨0x6040, 4, 4, .u 4, .ro, false, 0, none, [.stat]⟩,
  ⟨0x6100, 0, 0, .u 4, .ro, false, 0, none, []⟩,
  ⟨0x6101, 0, 0, .u 1, .ro, false, 8, none, []⟩,
  ⟨0x6101, 1, 8, .u 2, .ro, false, 0, none, []⟩,
  ⟨0x6102, 0, 0, .u 1, .ro, false, 7, none, []⟩,
  ⟨0x6102, 1, 7, .u 4, .ro, false, 0, none, [.stat]⟩]

def rowsPhysical1 : List Row := [
  ⟨0x6104, 0, 0, .u 2, .rwd, true, 1000, some (1000, 10000), []⟩,
  ⟨0x6105, 0, 0, .u 2, .ro, false, 0, none, []⟩,
  ⟨0x6106, 0, 0, .u 4, .ro, false, 0, none, [.stat]⟩,
  ⟨0x6110, 0, 0, .u 1, .ro, false, 6, none, []⟩,
  ⟨0x6110, 1, 1, .enum [0, 1, 2, 3], .ro, false, 0, none, []⟩,
  ⟨0x6110, 2, 2, .u 4, .ro, false, 0, none, []⟩,
  ⟨0x6110, 3, 3, .u 8, .ro, false, 0, none, []⟩,
  ⟨0x6110, 4, 4, .u 4, .ro, false, 0, none, []⟩,
  ⟨0x6110, 5, 5, .u 1, .ro, false, 0, none, []⟩,
  ⟨0x6110, 6, 6, .u 1, .ro, false, 255, none, []⟩,
  ⟨0x6111, 0, 0, .u 4, .ro, false, 0, none, [.stat, .persistent]⟩,
  ⟨0x6120, 0, 0, .u 1, .ro, false, 5, none, []⟩,
  ⟨0x6120, 1, 1, .u 2, .ro, false, 3600, none, []⟩,
  ⟨0x6120, 2, 2, .u 2, .ro, false, 0x5dc0, none, []⟩,
  ⟨0x6120, 3, 3, .u 2, .ro, false, 0x55f0, none, []⟩,
  ⟨0x6120, 4, 4, .u 1, .ro, false, 15, none, []⟩,
  ⟨0x6120, 5, 5, .u 1, .ro, false, 0, none, []⟩,
  ⟨0x6121, 0, 0, .enum [0, 1], .ro, false, 0, none, []⟩,
  ⟨0x6200, 0, 0, .u 4, .ro, false, 0, none, []⟩,
  ⟨0x6202, 0, 0, .u 1, .ro, false, 2, none, []⟩,
  ⟨0x6202, 1, 1, .u 2, .rw, true, 0xfc00, none, []⟩,
  ⟨0x6202, 2, 2, .u 2, .rw, true, 1024, none, []⟩,
  ⟨0x6203, 0, 0, .u 1, .ro, false, 4, none, []⟩,
  ⟨0x6203, 1, 1, .u 1, .cmd, false, 0, none, []⟩,
  ⟨0x6203, 2, 2, .u 2, .ro, false, 0, none, []⟩,
  ⟨0x6203, 3, 3, .u 8, .ro, false, 0, none, []⟩,
  ⟨0x6203, 4, 4, .u 1, .ro, false, 0, none, []⟩,
  ⟨0x6205, 0, 0, .u 1, .ro, false, 2, none, []⟩,
  ⟨0x6205, 1, 1, .u 1, .ro, false, 0, none, []⟩,
  ⟨0x6205, 2, 2, .u 1, .ro, false, 255, none, []⟩,
  ⟨0x6210, 0, 0, .u 1, .ro, false, 8, none, []⟩,
  ⟨0x6210, 1, 1, .enum [0, 1, 2, 3, 4, 5], .rw, true, 0, none, []⟩,
  ⟨0x6210, 2, 2, .u 4, .rw, true, 0x78000, none, []⟩,
  ⟨0x6210, 3, 3, .u 4, .rw, true, 2048, none, []⟩,
  ⟨0x6210, 4, 4, .u 1, .rw, true, 1, some (1, 64), []⟩,
  ⟨0x6210, 5, 5, .u 1, .ro, false, 0, none, []⟩,
  ⟨0x6210, 6, 6, .u 4, .ro, false, 0, none, []⟩,
  ⟨0x6210, 7, 7, .u 4, .ro, false, 0, none, [.stat]⟩,
  ⟨0x6210, 8, 8, .u 1, .cmd, false, 0, none, []⟩,
  ⟨0x6214, 0, 0, .u 1, .ro, false, 64, none, []⟩]

def rowsPhysical2 : List Row := [
  ⟨0x6214, 1, 64, .u 2, .rw, true, 0, none, []⟩,
  ⟨0x6220, 0, 0, .u 1, .ro, false, 5, none, []⟩,
  ⟨0x6220, 1, 1, .u 2, .ro, false, 0, none, []⟩,
  ⟨0x6220, 2, 2, .u 4, .ro, false, 0, none, []⟩,
  ⟨0x6220, 3, 3, .u 2, .rw, false, 0, some (0, 4095), [.notSaved]⟩,
  ⟨0x6220, 4, 4, .u 2, .ro, false, 0, none, []⟩,
  ⟨0x6220, 5, 5, .u 4, .ro, false, 0, none, [.stat]⟩,
  ⟨0x6221, 0, 0, .u 1, .ro, false, 128, none, []⟩,
  ⟨0x6221, 1, 128, .oct 512, .ro, false, 0, none, [.notTwt]⟩,
  ⟨0x6222, 0, 0, .u 2, .cmd, false, 0, none, []⟩,
  ⟨0x6230, 0, 0, .u 1, .ro, false, 64, none, []⟩,
  ⟨0x6230, 1, 64, .u 2, .ro, false, 0, none, []⟩,
  ⟨0x6231, 0, 0, .u 1, .ro, false, 64, none, []⟩,
  ⟨0x6231, 1, 64, .u 1, .ro, false, 0, none, []⟩,
  ⟨0x6232, 0, 0, .u 1, .ro, false, 64, none, []⟩,
  ⟨0x6232, 1, 64, .u 2, .ro, false, 0, none, []⟩,
  ⟨0x6233, 0, 0, .u 1, .ro, false, 64, none, []⟩,
  ⟨0x6233, 1, 64, .u 4, .ro, false, 0, none, [.stat]⟩,
  ⟨0x6300, 0, 0, .u 1, .ro, false, 6, none, []⟩,
  ⟨0x6300, 1, 1, .bool, .rwd, true, 0, none, []⟩,
  ⟨0x6300, 2, 2, .enum [0, 1, 2], .rwd, true, 1, none, []⟩,
  ⟨0x6300, 3, 3, .u 1, .rw, false, 25, some (1, 255), []⟩,
  ⟨0x6300, 4, 4, .u 2, .rw, false, 1000, some (10, 65535), []⟩,
  ⟨0x6300, 5, 5, .u 2, .rw, false, 10, some (1, 1000), []⟩,
  ⟨0x6300, 6, 6, .u 1, .cmd, false, 0, none, []⟩,
  ⟨0x6310, 0, 0, .u 1, .ro, false, 8, none, []⟩,
  ⟨0x6310, 1, 1, .u 1, .rw, false, 8, some (8, 119), []⟩,
  ⟨0x6310, 2, 2, .u 1, .rw, false, 0, some (0, 32), []⟩,
  ⟨0x6310, 3, 3, .oct 32, .rw, false, 0, none, []⟩,
  ⟨0x6310, 4, 4, .u 1, .rw, false, 0, some (0, 32), []⟩,
  ⟨0x6310, 5, 5, .u 1, .cmd, false, 0, none, []⟩,
  ⟨0x6310, 6, 6, .oct 32, .ro, false, 0, none, []⟩,
  ⟨0x6310, 7, 7, .u 1, .ro, false, 0, none, []⟩,
  ⟨0x6310, 8, 8, .u 8, .ro, false, 0, none, []⟩,
  ⟨0x6320, 0, 0, .u 1, .ro, false, 10, none, []⟩,
  ⟨0x6320, 1, 1, .enum [0, 1, 2, 3, 4, 5, 6, 7], .ro, false, 0, none, []⟩,
  ⟨0x6320, 2, 2, .u 1, .ro, false, 0, none, []⟩,
  ⟨0x6320, 3, 3, .u 4, .ro, false, 0, none, []⟩,
  ⟨0x6320, 4, 4, .u 4, .ro, false, 0, none, [.stat]⟩,
  ⟨0x6320, 5, 5, .u 4, .ro, false, 0, none, [.stat]⟩]

def rowsPhysical3 : List Row := [
  ⟨0x6320, 6, 6, .u 4, .ro, false, 0, none, [.stat]⟩,
  ⟨0x6320, 7, 7, .u 4, .ro, false, 0, none, [.stat]⟩,
  ⟨0x6320, 8, 8, .u 4, .ro, false, 0, none, [.stat]⟩,
  ⟨0x6320, 9, 9, .u 4, .ro, false, 0, none, [.stat]⟩,
  ⟨0x6320, 10, 10, .u 4, .ro, false, 0, none, [.stat]⟩,
  ⟨0x6340, 0, 0, .u 1, .ro, false, 7, none, []⟩,
  ⟨0x6340, 1, 1, .bool, .rwd, true, 1, none, []⟩,
  ⟨0x6340, 2, 2, .u 1, .ro, false, 0, none, []⟩,
  ⟨0x6340, 3, 3, .u 1, .ro, false, 0, none, []⟩,
  ⟨0x6340, 4, 4, .u 1, .rw, false, 25, some (1, 255), []⟩,
  ⟨0x6340, 5, 5, .u 4, .ro, false, 0, none, []⟩,
  ⟨0x6340, 6, 6, .u 4, .ro, false, 0, none, [.stat]⟩,
  ⟨0x6340, 7, 7, .u 4, .ro, false, 0, none, [.stat]⟩]

/-- Entries of thermal, supplies, housekeeping and two-wire (R428). -/
def rowsPhysical : List Row :=
  rowsPhysical0 ++ rowsPhysical1 ++ rowsPhysical2 ++ rowsPhysical3

/-- Entries of the Occurrence Book (R428). -/
def rowsBook : List Row := [
  ⟨0x6400, 0, 0, .u 4, .ro, false, 0, none, []⟩,
  ⟨0x6401, 0, 0, .u 2, .ro, false, 0, none, []⟩,
  ⟨0x6402, 0, 0, .u 2, .ro, false, 0, none, []⟩,
  ⟨0x6403, 0, 0, .u 2, .ro, false, 0, none, []⟩,
  ⟨0x6404, 0, 0, .u 2, .ro, false, 0, none, []⟩,
  ⟨0x6405, 0, 0, .u 4, .ro, false, 0, none, [.stat]⟩,
  ⟨0x6406, 0, 0, .u 4, .ro, false, 0, none, []⟩,
  ⟨0x6407, 0, 0, .u 4, .ro, false, 0, none, [.stat]⟩,
  ⟨0x6408, 0, 0, .u 2, .ro, false, 0, none, []⟩,
  ⟨0x6410, 0, 0, .u 1, .cmd, false, 0, none, []⟩,
  ⟨0x6411, 0, 0, .u 2, .ro, false, 0, none, []⟩,
  ⟨0x6420, 0, 0, .u 2, .rw, false, 0, none, [.notSaved]⟩,
  ⟨0x6421, 0, 0, .oct 32, .ro, false, 0, none, []⟩,
  ⟨0x6422, 0, 0, .oct 512, .ro, false, 0, none, [.notTwt]⟩,
  ⟨0x6430, 0, 0, .u 1, .ro, false, 4, none, []⟩,
  ⟨0x6430, 1, 1, .u 2, .rw, false, 0, none, [.notSaved]⟩,
  ⟨0x6430, 2, 2, .u 2, .rw, false, 0x8000, some (1, 32768), [.notSaved]⟩,
  ⟨0x6430, 3, 3, .u 1, .cmd, false, 0, none, []⟩,
  ⟨0x6430, 4, 4, .oct 144, .ro, false, 0, none, []⟩]

/-- Entries of self-test and proving swap (R429). -/
def rowsTest : List Row := [
  ⟨0x7000, 0, 0, .u 1, .ro, false, 3, none, []⟩,
  ⟨0x7000, 1, 1, .enum [1, 2], .cmd, false, 0, none, []⟩,
  ⟨0x7000, 2, 2, .enum [0, 1, 2, 3, 4], .ro, false, 0, none, []⟩,
  ⟨0x7000, 3, 3, .u 1, .rw, false, 0, some (0, 7), []⟩,
  ⟨0x7010, 0, 0, .u 1, .ro, false, 7, none, []⟩,
  ⟨0x7010, 1, 1, .u 2, .rw, false, 24, some (0, 8760), []⟩,
  ⟨0x7010, 2, 2, .u 2, .rw, false, 60, some (10, 3600), []⟩,
  ⟨0x7010, 3, 3, .cdb, .rw, false, 600, some (100, 2000), []⟩,
  ⟨0x7010, 4, 4, .u 8, .ro, false, 0, none, [.persistent]⟩,
  ⟨0x7010, 5, 5, .u 8, .ro, false, 0, none, []⟩,
  ⟨0x7010, 6, 6, .enum [0, 1, 2, 3, 4], .ro, false, 0, none, []⟩,
  ⟨0x7010, 7, 7, .u 1, .cmd, false, 0, none, []⟩]

/-- Instanced blocks beside paths and slots (R415): first index, instances, stride. -/
def blocks : List (Nat × Nat × Nat) := [
  (0x2A10, 4, 1), (0x2A30, 4, 1), (0x3110, 2, 1), (0x3140, 8, 1), (0x3220, 32, 1), (0x3240, 4, 1), (0x3250, 2, 1),
  (0x3260, 2, 1), (0x4300, 8, 1), (0x4310, 8, 1), (0x4800, 2, 16), (0x4801, 2, 16), (0x5110, 3, 1), (0x5120, 3, 1),
  (0x5124, 3, 1), (0x5128, 3, 1), (0x6020, 4, 1), (0x6210, 4, 1), (0x6214, 4, 1), (0x6300, 4, 1), (0x6310, 4, 1),
  (0x6320, 4, 1)]

/-- The block that holds index `i`: its first index and the instance. -/
def blockOf (i : Nat) : List (Nat × Nat × Nat) → Nat × Nat
  | [] => (i, 0)
  | (b, n, d) :: r => if b ≤ i ∧ i < b + n * d ∧ (i - b) % d = 0 then (b, (i - b) / d) else blockOf i r

/-- The first index and the instance number of an index (R415). -/
def canon (i : Nat) : Nat × Nat :=
  if 0x2000 ≤ i ∧ i < 0x2800 then (0x2000 + i % 0x40, (i - 0x2000) / 0x40)
  else if 0x4000 ≤ i ∧ i < 0x4300 then (0x4000 + i % 8, (i - 0x4000) / 8)
  else blockOf i blocks

/-- The rows of the area a first index lies in. -/
def rowsFor (c : Nat) : List Row :=
  if c < 0x2000 then rowsNode else if c < 0x2800 then rowsPath else if c < 0x3100 then rowsJunction
  else if c < 0x3200 then rowsGuard else if c < 0x4000 then rowsFrontEnd else if c < 0x4300 then rowsSlot
  else if c < 0x5000 then rowsAxis else if c < 0x6000 then rowsLink else if c < 0x6400 then rowsPhysical
  else if c < 0x7000 then rowsBook else rowsTest

/-- The row of an entry (R304, R414): `none` where index or subindex does not exist. TW2 and TW3 hold subindices 01 to 03
of 0x6300+c only, and every entry of slots 64 to 95 is RO (R426, R428). -/
def rowOf (i sub : Nat) : Option Row :=
  let c := canon i
  match (rowsFor c.1).find? (fun r => r.index = c.1 && r.lo ≤ sub && sub ≤ r.hi) with
  | none => none
  | some r =>
    if c.1 = 0x6300 ∧ 2 ≤ c.2 then
      (if 4 ≤ sub then none else if sub = 0 then some { r with dflt := 3 } else some r)
    else if 0x4000 ≤ i ∧ i < 0x4300 ∧ 64 ≤ c.2 then some { r with acc := .ro, staged := false }
    else some r

/-- Whether an index exists (R414). -/
def indexExists (i : Nat) : Bool := (rowsFor (canon i).1).any (fun r => r.index = (canon i).1)

/-- The key under which the dictionary keeps an entry. -/
def entKey (i sub : Nat) : Nat := i * 256 + sub

/-- The value an entry holds where nothing has set it (the map's Default column). -/
def entryDefault (key : Nat) : Nat := match rowOf (key / 256) (key % 256) with | some r => r.dflt | none => 0

/-- The width of a type in bytes (R7). -/
def Ty.width : Ty → Nat
  | .bool => 1
  | .u n => n
  | .s n => n
  | .cdb => 2
  | .enum _ => 1
  | .oct n => n

/-- Whether a raw value is a valid encoding of its type (R7, R8). -/
def Ty.valid : Ty → Nat → Bool
  | .bool, v => v ≤ 1
  | .cdb, v => v ≠ 0x8000
  | .enum codes, v => codes.contains v
  | _, _ => true

/-- The number a raw value of this type stands for, where a range bounds it. -/
def Ty.int : Ty → Nat → Int
  | .s n, v => sInt (8 * n) v
  | .cdb, v => sInt 16 v
  | _, v => v

/-- Whether a value lies in the range its entry states. -/
def Row.inRange (r : Row) (v : Nat) : Bool :=
  match r.range with
  | none => true
  | some (lo, hi) => lo ≤ r.ty.int v ∧ r.ty.int v ≤ hi

/-- The statistics counters (R324) among the entries of an index. -/
def Row.isStat (r : Row) : Bool := r.marks.contains .stat

end Sys2Proof.Machine
end

