-- ==== Sys2Proof/Machine/State.lean ====
section
/-! DEFINITION. The state of the part, as plain data. Every dictionary entry lives in `Core.dict` under its index and
subindex; the structures hold what the manual gives the part beside its entries. -/

namespace Sys2Proof.Machine

/-- Where the part stands in its reset phase (R36 to R40). -/
inductive Phase where
  /-- In reset: held, rails or RESET_N. -/
  | held
  /-- Reset released, straps latched, sampling synthesiser not locked yet. -/
  | released
  /-- Synthesiser locked, station clock counting, DEPOT not ready yet. -/
  | locked
  /-- DEPOT ready was reached. -/
  | ready
deriving DecidableEq, Repr

/-- An event a subsystem presents to the collector (R16, R401). `latching` marks the record that latches ISOLATE. -/
structure Event where
  source : Nat
  code : Nat
  data : List Byte
  stamp : Nat
  uncommon : Bool
  latching : Bool
deriving DecidableEq, Repr

/-- A scheduled commit (R316 to R318): its writes by entry key, its tick, its owner. -/
structure Sched where
  writes : Tab Nat
  tick : Nat
  owner : Nat
deriving DecidableEq, Repr

/-- A sample (R11): value, validity flag, birth[15:0] and path[4:0]. The birth tick is the low 16 bits of the station clock;
`Core.born` rebuilds the whole of it (R60). -/
structure Sample where
  i : Int
  q : Int
  valid : Bool
  birth : BitVec 16
  path : Fin 32
deriving DecidableEq, Repr

/-- The state registers of a second-order section for I and Q (R96). -/
structure Sect where
  s1i : Int
  s2i : Int
  s1q : Int
  s2q : Int
deriving DecidableEq, Repr

/-- The registers of one CIC filter (R93, R112): five integrators and five combs for I and for Q. -/
structure Cic where
  intI : List Int
  intQ : List Int
  combI : List Int
  combQ : List Int
deriving DecidableEq, Repr

/-- A CIC with every register clear. -/
def Cic.zero : Cic := ⟨List.replicate 5 0, List.replicate 5 0, List.replicate 5 0, List.replicate 5 0⟩

/-- A power accumulator: sum of I² + Q², samples so far, flags so far, and the number of the window it fills. -/
structure Power where
  sum : Nat
  count : Nat
  flags : Nat
  window : Option Nat
deriving DecidableEq, Repr

def Power.zero : Power := ⟨0, 0, 0, none⟩

/-- A 64-sample ramp in progress (R253): up or down, and the index of the next weight. -/
structure Ramp where
  up : Bool
  k : Nat
deriving DecidableEq, Repr

/-- A fade in the release stages (R254, R360): in or out, the release tick from which it runs, and the next index. -/
structure Fade where
  up : Bool
  from_ : Nat
  k : Nat
deriving DecidableEq, Repr

/-- One reference sample as the RFOUT carries it (R135), with the tick on which it leaves the ball. -/
structure RefSample where
  ball : Nat
  i : Int
  q : Int
deriving DecidableEq, Repr

/-- The canceller of a path (R136 to R153). -/
structure Canceller where
  taps : List (Int × Int)
  /-- The correlation sums over head, span and tail of the window in progress, with its power sums. In `window`, `sum` is the
  window's length in ticks. -/
  corr : List (Int × Int)
  refPower : Nat
  errPower : Nat
  window : Power
  /-- The 64-sample residual correlation sums of the Express window (R145). -/
  rhoI : Int
  rhoQ : Int
  rhoE : Nat
  rhoR : Nat
  peak : Nat
  /-- A valid window since the taps were set (R146), with the values held at a freeze. -/
  liveHeld : Bool
  iHold : Option Int
  sHold : Option Int
  frozen : Bool
  starvedRun : Nat
  headRun : Nat
  /-- The ceiling in 2^-16 dB (R146). -/
  ceiling : Option Int
  /-- The sweep phase in progress, 0 none, and its remaining path samples (R152). -/
  phase : Nat
  remaining : Nat
  /-- The taps of the sweep result held (R153). -/
  snapshot : List (Int × Int)
  /-- The instant at which the path stopped being live (R147). -/
  notLiveSince : Nat
  /-- The probe's two 23-bit sequences, and the sections that shape it (R152). -/
  probeI : Nat
  probeQ : Nat
  probeSects : List Sect
deriving DecidableEq, Repr

def Canceller.init : Canceller :=
  ⟨[], [], 0, 0, Power.zero, 0, 0, 0, 0, 0, false, none, none, false, 0, 0, none, 0, 0, [], 0, 0, 0, []⟩

/-- What the Guard keeps of a path beside its entries (R158 to R170). Deadlines are instants. -/
structure GuardPath where
  j0 : Nat
  n : Nat
  e0 : Int
  /-- The last reported Express input levels with their window numbers, newest first (R161). -/
  history : List (Nat × Int)
  /-- The last reported Stopping input level and the instant its interval ended (R161). -/
  stopping : Option (Int × Nat)
  decisions : List Nat
  oscLift : Option Nat
  belowRun : Nat
  noiseRun : Nat
  overload : Bool
  floorRun : Nat
  passRun : Nat
  breach : Bool
  floorMutes : List Nat
  oobLift : Option Nat
  noValueSince : Option Nat
  unverified : Bool
  reflBackoff : Bool
  reflMute : Bool
  shuntMute : Bool
  /-- The SHUNT limit of R27 on the gain, in 0.01 dB. -/
  shuntLimit : Option Int
deriving DecidableEq, Repr

def GuardPath.init : GuardPath :=
  ⟨0, 0, 0, [], none, [], none, 0, 0, false, 0, 0, false, [], none, none, false, false, false, false, none⟩

/-- A stored isolation-sweep result (R153): results, bound-only flag, the time it completed, the CRC-32 of the echo
configuration, and the tap snapshot. -/
structure SweepStore where
  iSwp : Nat
  sSwp : Nat
  bound : Bool
  time : Nat
  crc : Nat
  taps : List (Int × Int)
deriving DecidableEq, Repr

/-- What a path keeps beside its entries. -/
structure PathSt where
  cic : Cic
  /-- The droop equaliser (first) and the channel sections. -/
  sects : List Sect
  image : List Sect
  interp : Cic
  /-- The delay line, newest first (R108); second copies that wait for the selection (R79); the copy that the stage delays in
  front of the selection (R110). -/
  delay : List Sample
  second : List Sample
  front : List Sample
  /-- Valid inputs each stage still needs (R104): decimator, sections, phase delay, image filter, interpolator. -/
  needDec : Nat
  /-- Decimator outputs that are still a mix of two NCO words: invalid, and not zero (R106). -/
  needMix : Nat
  needSec : Nat
  needPhase : Nat
  needImage : Nat
  needInterp : Nat
  computing : Bool
  /-- Synchronising resets ordered and not yet met by a sample, as (tick, cause) (R105). -/
  resets : List (Nat × Nat)
  ramp : Option Ramp
  /-- The birth tick from which a ramp up runs (R35), and whether the ramp is decided and waits for it (R196, R204). -/
  rampTick : Option Nat
  armed : Bool
  /-- The activation tick of an accepted commit whose ramp down begins 64 samples before it (R107). -/
  placed : Option Nat
  /-- The activation tick of the last commit that changed the path, with what it replaced: samples born before that tick are
  computed with the old values (R14). -/
  before : Option (Nat × Tab Nat)
  /-- The level terms that output phases replaced, newest first: the tick of the phase, and the term that samples born before
  it still take (R211). -/
  levelPast : List (Nat × Int)
  /-- The gain of the last sample that passed the gain stage; the births of the samples in the delay line on which it
  changed; the ramp weight of the last output sample (R120). -/
  gainUsed : Option Int
  changes : List (BitVec 16)
  lastWeight : Nat
  exIn : Power
  exOut : Power
  stIn : Power
  stOut : Power
  stLen : Nat
  minSlack : Option Int
  /-- The smallest slack, 0 for a late sample, that the lifetime minimum has not taken yet (R62). -/
  lifeSlack : Option Int
  lateWindow : Nat
  /-- From which birth tick on the retimers owe the path's samples (R18), and the births already counted late (R62). -/
  owedFrom : Option Nat
  lateSeen : List Nat
  /-- The tick on which the path's last gate was met (R35). -/
  gateAt : Option Nat
  /-- An LO's lock left the path on the wrong side of its RFOUT's zone boundary (R74). -/
  offSide : Bool
  floorArmed : Bool
  /-- The path sample in progress lacks a word that the receive interface discarded (R19); the births of samples that never
  reached the path. -/
  gap : Bool
  missing : List (BitVec 16)
  /-- TDD (R183, R196, R197, R203): the transmit windows at the ball toward which the path counts; live since SYNCHRONISED was entered; the end, by birth
  tick, of the window an LO mutes, and of those that a coexistence channel cuts. -/
  counted : List (Int × Int)
  wasLive : Bool
  loCut : Option Int
  coexCut : List (Nat × Int)
  canc : Canceller
  guard : GuardPath
deriving DecidableEq, Repr

/-- A path that computes nothing. -/
def PathSt.init : PathSt where
  cic := Cic.zero
  sects := []
  image := []
  interp := Cic.zero
  delay := []
  second := []
  front := []
  needDec := 0
  needMix := 0
  needSec := 0
  needPhase := 0
  needImage := 0
  needInterp := 0
  computing := false
  resets := []
  ramp := none
  rampTick := none
  armed := false
  placed := none
  before := none
  levelPast := []
  gainUsed := none
  changes := []
  lastWeight := 65536
  exIn := Power.zero
  exOut := Power.zero
  stIn := Power.zero
  stOut := Power.zero
  stLen := 100
  minSlack := none
  lifeSlack := none
  lateWindow := 0
  owedFrom := none
  lateSeen := []
  gateAt := none
  offSide := false
  floorArmed := true
  gap := false
  missing := []
  counted := []
  wasLive := false
  loCut := none
  coexCut := []
  canc := Canceller.init
  guard := GuardPath.init

/-- An item a retimer holds (R17, R60): one path sample for its sink, as 24 × t_s converter samples for an RFOUT and as
itself for a Line stream. -/
structure Due where
  path : Nat
  /-- The stream's endpoint code at a Line sink, 0 at an RFOUT. -/
  stream : Nat
  release : Nat
  arrival : Nat
  valid : Bool
  sample : Sample
  words : List (Int × Int)
  /-- The transmit NCO word, and whether the spectrum is inverted, as the sample was computed. -/
  nco : Nat
  inverts : Bool
deriving DecidableEq, Repr

/-- A retimer and its sink: what it holds, what the sink last carried, and the composite window in progress (R125). -/
structure SinkSt where
  due : List Due
  word : List Int
  wordValid : Bool
  composite : Tab Power
  /-- What each path's contribution was at this RFOUT, newest first (R135). -/
  history : Tab (List RefSample)
  /-- The fades of the paths that fade at this RFOUT. -/
  fades : Tab Fade
deriving DecidableEq, Repr

def SinkSt.init : SinkSt := ⟨[], [], false, [], [], []⟩

/-- A receive interface: its buffered words with their birth ticks (R19), a word discarded on a full buffer standing there
without samples, and the over-range window (R166). -/
structure RfinSt where
  buffer : List (Nat × List (BitVec 12))
  overruns : Nat
  overRange : Nat
  run : Nat
  releaseAt : Option Nat
deriving DecidableEq, Repr

def RfinSt.init : RfinSt := ⟨[], 0, 0, 0, none⟩

/-- A capture buffer (R127 to R130): its stored samples, newest first, each with its full birth tick and its flags byte; how many of them stand after
the trigger sample; the samples marked before arm; its own decimator and droop equaliser (R95) with the outputs it still holds
invalid; the tick from which a sample is the trigger sample. -/
structure CaptureSt where
  stored : List (Nat × Sample × Nat)
  afterTrigger : Nat
  before : Nat
  cic : Cic
  sect : Sect
  need : Nat
  fired : Option Nat
deriving DecidableEq, Repr

def CaptureSt.init : CaptureSt := ⟨[], 0, 0, Cic.zero, ⟨0, 0, 0, 0⟩, 0, none⟩

/-- An LO synthesiser beside its entries (R48 to R51). -/
structure LoSt where
  /-- The frequency in force or being tuned, in kHz. -/
  freq : Nat
  held : Option Nat
  calPending : Bool
  deadline : Option Nat
deriving DecidableEq, Repr

def LoSt.init : LoSt := ⟨0, none, false, none⟩

/-- Station time beside its entries (R53 to R58, R63). -/
structure TimeSt where
  qualified : List Nat
  holdoverAt : Option Nat
  setDeadline : Option Nat
  ppsLast : Option Nat
  ppsAccepted : Nat
  ppsOut : Bool
  ppsFall : Option Nat
  reftune : Nat
  reftuneBase : Nat
  clamped : Bool
  reftuneNext : Nat
  /-- The discipline loop's correction in force, in 0.001 ppb (R58), and the corrections of the last 10 s of LOCKED, newest
  first (R53). -/
  loop : Int
  loopPast : List Int
  /-- Consecutive measurements of the phase within ±4 ticks (R53). -/
  inPhase : Nat
  /-- The control period in progress: its starting tick; whether its outputs were written. -/
  period : Option Nat
  outputsDone : Bool
  slackFlagged : Bool
  romNext : Nat
deriving DecidableEq, Repr

def TimeSt.init : TimeSt :=
  ⟨[], none, none, none, 0, false, none, 0x8000, 0x8000, false, 0, 0, [], 0, none, false, false, 0⟩

/-- A reflected-power detector of the Guard (R170): runs of counted samples below the thresholds, deadlines and the
ticks of its mutes. -/
structure ReflSt where
  backoffRun : Nat
  muteRun : Nat
  goodSince : Option Nat
  liftAt : Option Nat
  mutes : List Nat
  lastFresh : Nat
  seqF : Nat
  seqR : Nat
  stale : Bool
deriving DecidableEq, Repr

def ReflSt.init : ReflSt := ⟨0, 0, none, none, [], 0, 0, 0, false⟩

/-- The node-wide Guard beside its entries. -/
structure GuardSt where
  netStand : Bool
  /-- The instant from which NETSTOP_N has been high: its last assertion, the return of field supply, or the start. -/
  netAt : Nat
  /-- The instant of the write of 0 to 0x3104.01 since which no Line stop stands. -/
  lineClear : Option Nat
  retryAt : Option Nat
  isolateSince : Option Nat
  latchCause : Nat
  refl : Tab ReflSt
deriving DecidableEq, Repr

def GuardSt.init : GuardSt := ⟨false, 0, none, none, none, 0, []⟩
/-- A Points pair beside its entries (R199 to R201). -/
structure PointsSt where
  pending : Option Nat
  wins : Nat
  /-- Consecutive bursts on which branch A (B) had no level and the other had one; then with a level. -/
  missA : Nat
  missB : Nat
  goodA : Nat
  goodB : Nat
  /-- Branch A (B) is missing for want of a level. -/
  lostA : Bool
  lostB : Bool
  /-- The station tick c on which the pending change takes effect, and on which the POINTS output follows. -/
  changeAt : Option Nat
  pinAt : Option Nat
  pin : Bool
  /-- The level the POINTS output takes at `pinAt`. -/
  pinTo : Bool
  /-- The last change of branch: its tick, and the branch before it (R80). -/
  since : Option Nat
  was : Nat
  /-- On a STANDBY, the ACTIVE's change under way: its effect tick and branch (R258, R260). -/
  follow : Option (Nat × Nat)
deriving DecidableEq, Repr

def PointsSt.init : PointsSt := ⟨none, 0, 0, 0, 0, 0, false, false, none, none, false, false, none, 0, none⟩

/-- A coexistence channel beside its entries (R202, R203). Deadlines are instants. -/
structure CoexSt where
  /-- The masked RFOUTs release zero. -/
  cut : Bool
  decidedAt : Nat
  grantAt : Option Nat
  grantedAt : Nat
  resumeAt : Option Nat
  overdue : Bool
  gnt : Bool
  /-- The episode of R179 of the present grant has been reported. -/
  reported : Bool
deriving DecidableEq, Repr

def CoexSt.init : CoexSt := ⟨false, 0, none, 0, none, false, false, false⟩

/-- Front-end timing beside its entries (R186 to R204). -/
structure FrontEnd where
  /-- The frame start F in 1/16 tick of the station clock (R190, R194). -/
  frame16 : Int
  /-- The system frame number of the frame that starts at F (R192). -/
  frameNumber : Nat
  /-- What remains of a slew toward the measured timing, in 1/16 tick (R195). -/
  slew16 : Int
  verified : Nat
  missedRun : Nat
  everSync : Bool
  /-- The instant HOLDOVER was entered, and that of the last burst expected (R193). -/
  holdSince : Option Nat
  burstAt : Nat
  /-- Consecutive bursts near prediction in HOLDOVER, and the last far position with its run (R195). -/
  nearRun : Nat
  far : Option Int
  /-- The measured frame start that replaces F at the next period start. -/
  jump : Option Int
  /-- A period start has passed since SYNCHRONISED was last entered (R196). -/
  gateOpen : Bool
  /-- The start of the last period begun (R190). -/
  lastStart : Option Int
  /-- The first period start of the Timetable in force; none while it does not run (R190). -/
  actFrom : Option Int
  /-- The Timetable entry in force, and the pattern word it selected. -/
  entry : Option Nat
  pattern : Nat
  /-- FEC outputs whose edge an interlock holds, and whether the first clip since a commit was recorded (R187). -/
  clipped : List Nat
  clipRecorded : Bool
  /-- When each FEC output was last asserted (R204); when the PA enables and the TRSW of each port last released (R188,
  R202). -/
  fecAt : Tab Nat
  paOff : Tab Nat
  trOff : Tab Nat
  points : Tab PointsSt
  coex : Tab CoexSt
deriving DecidableEq, Repr

def FrontEnd.init : FrontEnd :=
  ⟨0, 0, 0, 0, 0, false, none, 0, 0, none, none, false, none, none, none, 0, [], false, [], [], [], [], []⟩

/-- The result of one run of a slot, waiting for the output phase (R211). -/
structure SlotRun where
  out : Int
  regs : List Int
  mPrev : Int
  nOn : Nat
  nOff : Nat
  on : Bool
  r0 : Int
  remaining : Nat
  sats : Nat
  /-- The computation ran past the output phase (R214). -/
  late : Bool
  /-- The law was computed: the run counts. In FALLBACK the output only moves (R228). -/
  computed : Bool
  /-- In HOLD the output stays (R228). -/
  holds : Bool
  /-- The values latched from the inputs, where they were fresh, and the freshness sequences (R211, R216). -/
  in0 : Option Int
  in1 : Option Int
  seq0 : Nat
  seq1 : Nat
  /-- The state, stale count and count of good runs that the run leaves (R228), and the hand-over cause it answers. -/
  state : Nat
  stale : Nat
  good : Nat
  hand : Nat
  /-- The hand-over cause of the slot as the run found it. -/
  found : Nat
deriving DecidableEq, Repr

/-- A loop slot beside its entries (R219 to R231). -/
structure SlotSt where
  /-- The freshness sequences of the inputs as the last run latched them. -/
  seq0 : Nat
  seq1 : Nat
  mPrev : Int
  nOn : Nat
  nOff : Nat
  on : Bool
  /-- The cause of a hand-over due on the next run, 0 none: 1 commit, 2 enabling, 3 return from FALLBACK. -/
  hand : Nat
  r0 : Int
  handTotal : Nat
  /-- Consecutive runs that were not stale, in FALLBACK. -/
  good : Nat
  /-- A run has completed since the slot was enabled. -/
  ran : Bool
  next : Option SlotRun
deriving DecidableEq, Repr

def SlotSt.init : SlotSt := ⟨0, 0, 0, 0, 0, false, 0, 0, 0, 0, false, none⟩

/-- An actuator axis beside its entries (R232 to R236). -/
structure AxisSt where
  levelA : Bool
  levelB : Bool
  lastEdge : Nat
  stallSince : Option Nat
  /-- The output of the slot that drives the axis, in duty units. -/
  command : Int
  /-- The position latched at the control period's tick 0. -/
  latched : Int
  indexed : Bool
  /-- Ticks from the PWM period start at which the outputs rise and fall: first tick high and last tick high plus 1. -/
  periodStart : Nat
  rise : Nat
  fall : Nat
deriving DecidableEq, Repr

def AxisSt.init : AxisSt := ⟨false, false, 0, none, 0, 0, false, 0, 0, 0⟩

/-- A record on its way over the twin link (R257, R259): its type, sequence, data, and how often it was sent. -/
structure TwinRec where
  kind : Nat
  seq : Nat
  data : List Byte
  sent : Nat
deriving DecidableEq, Repr

/-- Twin operation beside its entries (R245 to R270). Deadlines are instants. -/
structure TwinSt where
  /-- TOKEN_O toggles. -/
  token : Bool
  preemptOut : Bool
  preemptIn : Bool
  assertedAt : Nat
  windowUntil : Option Nat
  partnerSeen : Bool
  claimAt : Option Nat
  yielded : Bool
  /-- The switching-class drivers are enabled. -/
  drivers : Bool
  swapTick : Option Nat
  swapKind : Nat
  swapOut : Bool
  swapPhase : Nat
  protectedSince : Option Nat
  tokenMissing : Option Nat
  conditionsSince : Option Nat
  joinFrom : Option Nat
  failures : List Nat
  heldOut : Bool
  mismatches : Tab Nat
  matches_ : Tab Nat
  frameSeq : Nat
  recSeq : Nat
  outbox : List TwinRec
  applied : List Nat
  badFrames : Nat
  lastFrame : Nat
  copied : Tab Nat
  easeAt : Option Nat
  dwellEnd : Option Nat
  before : Tab Int
  differences : Nat
  maxDifference : Int
  /-- The self-test in progress (R270): 1 the receive chain, 2 the link, 3 the receive chain in guard intervals; and since when. -/
  selfTest : Option Nat
  selfTestAt : Nat
  reclaimAt : Option Nat
  resetHold : Bool
  /-- After a claim the release stages force zero until `openAt`, and the drivers enable at `driversAt` (R250). -/
  openAt : Nat
  driversAt : Option Nat
  /-- A STANDBY's own slot results and those received, as (period start, slot, output, state) (R260, R263): the state is the
  four registers, the previous measurement, and the switch's counts and state. -/
  slotOwn : List (Nat × Nat × Int × List Int)
  slotIn : List (Nat × Nat × Int × List Int)
  /-- Copy blocks of the step in progress by index, as received or as sent, and how many the step has (R265). -/
  blocks : Tab (List Byte)
  copyEnd : Option Nat
  /-- The window numbers last sent, and last compared, by item and index (R263). -/
  sentNumbers : Tab Nat
  compared : Tab Nat
  /-- A STANDBY's own Guard decisions that the ACTIVE has not made yet: path, cause, instant (R263). -/
  decisions : List (Nat × Nat × Nat)
  /-- The frame sent last. -/
  sentFrame : List Byte
deriving DecidableEq, Repr

def TwinSt.init : TwinSt where
  token := false
  preemptOut := false
  preemptIn := false
  assertedAt := 0
  windowUntil := none
  partnerSeen := false
  claimAt := none
  yielded := false
  drivers := false
  swapTick := none
  swapKind := 0
  swapOut := false
  swapPhase := 0
  protectedSince := none
  tokenMissing := none
  conditionsSince := none
  joinFrom := none
  failures := []
  heldOut := false
  mismatches := []
  matches_ := []
  frameSeq := 0
  recSeq := 0
  outbox := []
  applied := []
  badFrames := 0
  lastFrame := 0
  copied := []
  easeAt := none
  dwellEnd := none
  before := []
  differences := 0
  maxDifference := 0
  selfTest := none
  selfTestAt := 0
  reclaimAt := none
  resetHold := false
  openAt := 0
  driversAt := none
  slotOwn := []
  slotIn := []
  blocks := []
  copyEnd := none
  sentNumbers := []
  compared := []
  decisions := []
  sentFrame := []

/-- A Line port beside its entries (R278 to R296). -/
structure PortSt where
  goodFrames : Nat
  missing : Nat
  lastTick : Nat
  /-- Consecutive valid time exchanges, and the last 16,384 values of d_rx, newest first, in 1/256 tick (R290). -/
  exchanges : Nat
  delays : List Int
  mOwn : Option Int
  /-- What the neighbour's last time message said (R289). -/
  nbrStatus : Nat
  nbrRoot : Bool
  nbrTimePort : Bool
  nbrRing : Bool
  nbrHops : Nat
  nbrAge : Nat
  nbrTerminus : Nat
  nbrFec : Bool
  fecSince : Option Nat
  fecFlagged : Bool
  /-- Lanes block-locked and deskewed. -/
  locked : Bool
  /-- The packet being assembled; whole packets not taken yet; the packet being sent and those waiting (R296, R299). -/
  rx : List Byte
  arrived : List (List Byte)
  tx : List Byte
  forward : List (List Byte)
  own : List (List Byte)
  /-- The frame sent last: the lane headers and the cells. -/
  sentHeader : List Byte
  sentCells : List (List Byte)
deriving DecidableEq, Repr

def PortSt.init : PortSt :=
  ⟨0, 0, 0, 0, [], none, 0, false, false, false, 0xFFFF, 0, 0, false, none, false, false, [], [], [], [], [], [], []⟩

/-- A learned address (R297). -/
structure Learned where
  port : Nat
  at_ : Nat
deriving DecidableEq, Repr

/-- The Line beside its entries (R291 to R300). -/
structure LineSt where
  ports : Tab PortSt
  learned : Tab Learned
  /-- Stream samples received and not delivered yet: inbound endpoint, whether the cell was lost, the tick of delivery, the
  sample. -/
  inflow : List (Nat × Bool × Nat × Sample)
  /-- Stream samples released and not sent yet, oldest first: outbound endpoint, tick of release, sample. -/
  outflow : List (Nat × Nat × Sample)
  ringFell : Bool
  probesBack : Nat
  probeAt : Option Nat
  requestAt : Option Nat
  decisionBy : Option Nat
  retryAt : Option Nat
  rootSince : Option Nat
  admittedAt : Nat
deriving DecidableEq, Repr

def LineSt.init : LineSt := ⟨[], [], [], [], false, 0, none, none, none, none, none, 0⟩

/-- A join in progress at the terminus (R332). -/
structure Joining where
  address : Nat
  serial : List Byte
  key : List Byte
  nonce : List Byte
  since : Nat
deriving DecidableEq, Repr

/-- A host decision held for a referred station's next request (R334). -/
structure Referred where
  fingerprint : List Byte
  accept : Bool
  until_ : Nat
deriving DecidableEq, Repr

/-- What the signing engine is signing (R330): 1 join answer, 2 attestation, 3 book export. -/
structure Signing where
  purpose : Nat
  message : List Byte
  clock : Nat
  by_ : Nat
deriving DecidableEq, Repr

/-- The identity logic beside its entries (R329 to R335). -/
structure IdentSt where
  signing : Option Signing
  /-- A join answer waiting for the engine. -/
  waiting : Option Signing
  storeGood : Bool
  joins : List Joining
  referred : List Referred
  heard : Tab Nat
  /-- The roster by entry number, each entry's 40 bytes as a little-endian number (R333). Held in persistent state. -/
  roster : Tab Nat
deriving DecidableEq, Repr

def IdentSt.init : IdentSt := ⟨none, none, true, [], [], [], []⟩

/-- Thermal supervision beside its entries (R341 to R350). The runs stand in the order WARN, THROTTLE, SHUTDOWN. -/
structure ThermSt where
  setRun : List Nat
  clearRun : List Nat
  goodRun : Tab Nat
  moveFrom : Nat
  shed : List Nat
  /-- The gain trim, in 0.0001 dB, and the reference trim of every converter: RFIN0 to 7, then RFOUT0 to 7 (R351). DESIGN
  CHOICE (log 131): 0 at reset. -/
  trims : Tab (Int × Int)
deriving DecidableEq, Repr

def ThermSt.init : ThermSt := ⟨[0, 0, 0], [0, 0, 0], [], 0, [], []⟩

/-- The gain and reference trims of a converter (R351). -/
def ThermSt.trim (t : ThermSt) (k : Nat) : Int × Int := t.trims.get (fun _ => (0, 0)) k

/-- A hold-up save in progress (R358). -/
structure Save where
  slot : Nat
  seq : Nat
  next : Nat
  good : Nat
  from_ : Nat
  clock : Nat
  status : Nat
  rail : Nat
  /-- The staged records as they stood when page 5 completed. -/
  records : List (List Byte)
deriving DecidableEq, Repr

/-- Supplies beside their entries (R355 to R362). -/
structure SupplySt where
  episodeAt : Option Nat
  lastSag : Nat
  browned : Bool
  save : Option Save
  saveEnd : Nat
  /-- A reset held by a save (R359): its cause and since when. -/
  heldReset : Option (Nat × Nat)
  /-- A reset held by the last save, to be recorded at the next start. -/
  heldRecord : Option (Nat × Nat)
  /-- The release stages force zero (R356), and the ramp that follows a recovery (R360). -/
  forced : Bool
  resumeAt : Option Nat
deriving DecidableEq, Repr

def SupplySt.init : SupplySt := ⟨none, 0, false, none, 0, none, none, false, none⟩

/-- A conversion slot in progress (R369): an urgent one, or a check or value slot of the running sequence. -/
inductive HkKind where
  | urgent
  | check
  | value
deriving DecidableEq, Repr

/-- The slot: what it converts, the instant it starts, the station tick on which its input is sampled. -/
structure HkSlot where
  kind : HkKind
  channel : Nat
  start : Nat
  sample : Nat
deriving DecidableEq, Repr

/-- A run of a housekeeping sequence (R373 to R375): its steps as they stood at its start, the next step, what the check
slot of that step found, and whether an urgent slot was inserted. -/
structure HkRun where
  q : Nat
  steps : List Nat
  k : Nat
  checked : Option Bool
  urgentUsed : Bool
deriving DecidableEq, Repr

/-- The housekeeping converter beside its entries (R369 to R382). -/
structure HkSt where
  slot : Option HkSlot
  run : Option HkRun
  urgent : List Nat
  /-- Consecutive checks that found a channel connected. -/
  connected : Tab Nat
  buffer : Tab Nat
  /-- The channels whose latest result carries the open-wire flag (R376, R379): 1 where it does. -/
  flagged : Tab Nat
  /-- Mark values, with the ticks of their writes, that wait for the slot in progress to end (R380). -/
  marks : List (Nat × Nat)
deriving DecidableEq, Repr

def HkSt.init : HkSt := ⟨none, none, [], [], [], [], []⟩

/-- One transfer waiting at a two-wire channel (R388, R218). -/
inductive TwItem where
  | host
  | slot (s : Nat) (address register : Nat) (data : List Byte)
deriving DecidableEq, Repr

/-- A two-wire channel beside its entries (R386 to R393). -/
structure TwSt where
  queue : List TwItem
  running : Option TwItem
  /-- The bus has been checked since DEPOT ready or since the channel was enabled. -/
  checked : Bool
  checkAt : Nat
  retryAt : Option Nat
  /-- The end of a reset pulse and its recovery, with its cause. -/
  pulseEnd : Option Nat
  pulseCause : Nat
  /-- Reset line driven low until. -/
  lineLowUntil : Nat
  /-- The speed in force (a change waits for the transfer in progress) and whether the channel is on. -/
  speed : Nat
  on : Bool
  /-- The clocks of the transfer or the recovery in progress (R387): the tick on which SCL first goes low, and for each clock
  whether the part lets SDA go. -/
  wire : Option (Nat × List Bool)
  /-- The tick from which the bus has been free long enough for a START (R387, R389). -/
  freeAt : Nat
  /-- The last tick on which SCL is known to have been high (R390). -/
  highAt : Nat
deriving DecidableEq, Repr

def TwSt.init : TwSt := ⟨[], none, false, 0, none, none, 0, 0, 1, false, none, 0, 0⟩

/-- A second in which the first of a kind of event was seen and the record waits for the count: written when the second
ends (R399). `head` is the data before the count. -/
structure Second where
  source : Nat
  code : Nat
  head : List Byte
  count : Nat
  ends : Nat
  /-- The record is written at the end with the count; otherwise it was written at the first event. -/
  counted : Bool
deriving DecidableEq, Repr

/-- Everything of the part but its book and non-volatile memory, its transports and its boundary scan. -/
structure Core where
  phase : Phase
  /-- Ticks since power-on: the instant every duration is measured against. -/
  now : Nat
  /-- The station clock (R52), modulo 2^64. -/
  clock : Nat
  /-- Whether the station tick runs (R39). -/
  ticking : Bool
  /-- The instant of the last release of reset, or of lock while the phase is locked. -/
  since : Nat
  /-- RESET_N is low. -/
  resetLow : Bool
  /-- How many open values have been drawn. The model's own field, not the manual's. -/
  free : Nat
  /-- The object dictionary: the value in force of every entry that differs from its default. -/
  dict : Tab Nat
  /-- The keys of the statistics counters whose overflow flag is set (R324). -/
  sticky : List Nat
  /-- Events presented and not yet collected (R401). -/
  presented : List Event
  seconds : List Second
  /-- Persistent-state units pending, oldest first, each a list of keys and values (R25). Key 0 is the ISOLATE latch. -/
  persist : List (List (Nat × Nat))
  /-- Calibration pages pending (R153): path, pages left, and what the region then holds for the path. -/
  cal : List (Nat × Nat × Option SweepStore)
  latched : Bool
  /-- The pending set (R315) by entry key, and the instant of its owner's last request. -/
  pend : Tab Nat
  ownerSeen : Nat
  sched : Option Sched
  /-- Twin-local writes held for the pair's next commit (R262), and LIVE writes waiting for their effect tick (R260). -/
  heldLocal : Tab Nat
  later : List (Nat × Nat × Nat)
  time : TimeSt
  los : Tab LoSt
  rfins : Tab RfinSt
  paths : Tab PathSt
  sinks : Tab SinkSt
  captures : Tab CaptureSt
  guard : GuardSt
  /-- The Line inbound streams present (R35), as endpoint codes. -/
  inbound : List Nat
  /-- Converters powered and waiting for their power-up calibration or to be powered down, by deadline (R34, R68). -/
  calibrateBy : Option Nat
  powerDownBy : Option Nat
  fe : FrontEnd
  box : Tab SlotSt
  axes : Tab AxisSt
  twin : TwinSt
  line : LineSt
  ident : IdentSt
  therm : ThermSt
  supply : SupplySt
  hk : HkSt
  tw : Tab TwSt
deriving DecidableEq, Repr

/-- A record of the book (R399), before it is laid out in its 32 bytes. `flags` is byte 11. -/
structure Record where
  stamp : Nat
  source : Nat
  address : Nat
  flags : Nat
  code : Nat
  seq : Nat
  data : List Byte
deriving DecidableEq, Repr

/-- A unit of the NV write engine (R25). -/
inductive Unit_ where
  | book (r : Record)
  /-- A restored record of a hold-up save, rewritten from the save area. -/
  | restored (bytes : List Byte)
  | persist (keys : List (Nat × Nat))
  | save (page : Nat)
  /-- A page of an image slot, with its bytes. -/
  | image (slot page : Nat) (bytes : List Byte)
  /-- The erasure of an image slot. -/
  | erase (slot : Nat)
  /-- The header page of a save slot, rewritten as superseded. -/
  | supersede (slot : Nat)
  | calibration (path : Nat) (last : Bool) (content : Option SweepStore)
deriving DecidableEq, Repr

/-- An image save in progress (R42): the slot, the bytes to write, and the next page. -/
structure ImageJob where
  slot : Nat
  bytes : List Byte
  page : Nat
deriving DecidableEq, Repr

/-- The NV write engine and the MRAM (R23 to R25). -/
structure Nv where
  /-- The unit in progress. -/
  unit : Option Unit_
  job : Option ImageJob
  /-- Image slots whose erasure waits for the engine (R24, R42). -/
  erasing : List Nat
  /-- A save slot whose header waits to be rewritten as superseded (R360, R361). -/
  superseding : Option Nat
  /-- Image slots A and B: header and image bytes as stored; an erased slot holds no byte. -/
  slotA : List Byte
  slotB : List Byte
  /-- The Occurrence Book region by slot: each slot's 32 bytes as a little-endian number. -/
  records : Tab Nat
  /-- The newest sequence in the region. -/
  newest : Option Nat
  /-- The hold-up save area by save slot and page: 12 slots of 81 pages of 256 bytes, each as a little-endian number. -/
  saves : Tab Nat
  saveLast : Nat
  /-- Persistent state by key, with the roster by entry number. -/
  persistent : Tab Nat
  roster : Tab Nat
  /-- The sweep results of the field calibration region, by path. -/
  sweeps : Tab (Option SweepStore)
  factoryGood : Bool
  fieldGood : Bool
deriving DecidableEq, Repr

def Nv.init : Nv := ⟨none, none, [], none, [], [], [], none, [], 11, [], [], [], true, true⟩

/-- The collector and the reader of the Occurrence Book (R401 to R410). -/
structure Book where
  opened : Bool
  /-- The collector takes no further record (R404, a reset command). -/
  closed : Bool
  queue : List Record
  restored : List (List Byte)
  next : Nat
  /-- Losses not yet reported, with the first and last lost timestamps (R405). -/
  losses : Nat
  firstLost : Nat
  lastLost : Nat
  /-- The retention register survived the last reset (R406). -/
  retained : Bool
  frozen : Option Nat
  releasedByReset : Bool
  /-- An export in progress: the sequences asked for, and those hashed. -/
  export_ : Option (Nat × Nat)
  /-- A reset command drains the queue, and resets at this instant at the latest. -/
  drainBy : Option Nat
  /-- Persistent-state units that the retention register carries across a reset while NV writing is stopped (R36). -/
  carried : List (List (Nat × Nat))
deriving DecidableEq, Repr

def Book.init : Book := ⟨false, false, [], [], 0, 0, 0, 0, false, none, false, none, none, []⟩

/-- A Line request waiting for the dictionary engine (R314): its source, role selector and destination class, and its
bytes. -/
structure Waiting where
  source : Nat
  role : Nat
  toPair : Bool
  broadcast : Bool
  bytes : List Byte
deriving DecidableEq, Repr

/-- A Line transaction in flight, or a quarantined tag (R310). -/
structure Flight where
  destination : Nat
  until_ : Nat
  quarantined : Bool
  /-- The request's header, for the response of a timeout. -/
  request : List Byte
deriving DecidableEq, Repr

/-- The transports (R310 to R322). -/
structure Link where
  /-- The HSPI request buffer: wrapper and request, while its service waits (R319). -/
  hspi : Option (List Byte)
  responses : List (List Byte)
  overflowed : Bool
  /-- The response begun by the last command, for the moment of its removal. -/
  lastSent : List Byte
  lineQueue : List Waiting
  flights : Tab Flight
  /-- TWT: mailbox state, length and buffer (R322). -/
  mailState : Nat
  mailLength : Nat
  mail : List Byte
  /-- The byte that TWT last sent. -/
  twtSent : Nat
  /-- The transport whose read the wait of R408 holds, and the instant at which it ends: 1 Line, 2 HSPI, 3 TWT. -/
  held : Option (Nat × Nat)
  /-- The instant of the management clock edge on which the engine last took a request (R15). -/
  servedAt : Option Nat
deriving DecidableEq, Repr

def Link.init : Link :=
  ⟨none, [], false, [], [], [], 0, 0, List.replicate 248 0, 0, none, none⟩

/-- The boundary scan (R440 to R442). -/
structure Jtag where
  ir : Nat
  /-- The instruction in force under R442, none where it acts as BYPASS. -/
  inForce : Option Nat
  /-- The data register selected: 0 boundary scan, 1 identification, 2 bypass. -/
  dr : Nat
  /-- What the boundary-scan register was last loaded with by SAMPLE/PRELOAD, drawn from the balls. -/
  boundary : Nat
deriving DecidableEq, Repr

/-- The TAP in Test-Logic-Reset: IDCODE loaded (R440). -/
def Jtag.init : Jtag := ⟨0x01, none, 1, 0⟩

/-- The state of the part, with the queue of commands that wait. -/
structure State where
  core : Core
  book : Book
  nv : Nv
  link : Link
  jtag : Jtag
  pending : List Instr
deriving DecidableEq, Repr

/-- The part in reset with every entry at its default (R36, R324), nothing written to its MRAM. -/
def Core.init : Core where
  phase := .held
  now := 0
  clock := 0
  ticking := false
  since := 0
  resetLow := false
  free := 0
  dict := []
  sticky := []
  presented := []
  seconds := []
  persist := []
  cal := []
  latched := false
  pend := []
  ownerSeen := 0
  sched := none
  heldLocal := []
  later := []
  time := TimeSt.init
  los := []
  rfins := []
  paths := []
  sinks := []
  captures := []
  guard := GuardSt.init
  inbound := []
  calibrateBy := none
  powerDownBy := none
  fe := FrontEnd.init
  box := []
  axes := []
  twin := TwinSt.init
  line := LineSt.init
  ident := IdentSt.init
  therm := ThermSt.init
  supply := SupplySt.init
  hk := HkSt.init
  tw := []

/-- The machine right after reset (R36): a part as it comes from production, in its power-on reset. -/
def State.reset : State := ⟨Core.init, Book.init, Nv.init, Link.init, Jtag.init, []⟩

/-- The machine never stops with a fault: no row of the table is without an effect. Nobody raises it; it has no
constructor. -/
inductive Fault where
deriving DecidableEq, Repr

/-- Why a command is turned away. -/
inductive Refusal where
  /-- Raised by `exec` for a command that has no meaning yet, by the mnemonic of its row. Safe: nothing is claimed of
  it. -/
  | notModelled (mnemonic : String)
deriving DecidableEq, Repr

/-- What a meaning answers. -/
abbrev Out : Type := Host.Outcome State Fault Refusal

end Sys2Proof.Machine
end

