-- ==== Sys2Proof/Machine/Ops.lean ====
section
/-! DEFINITION. The named operations over the part's state: dictionary entries, statistics counters, events, persistent
state, open values, and the sparse tables of paths, sinks and converters. -/

namespace Sys2Proof.Machine

/-- The value in force of an entry, raw. -/
def Core.ent (c : Core) (i sub : Nat) : Nat := c.dict.get entryDefault (entKey i sub)

/-- The value in force of an entry of `w` bits, read as two's complement. -/
def Core.entS (c : Core) (w i sub : Nat) : Int := sInt w (c.ent i sub)

/-- The hundredths of a dB of a CDB entry; meaningful where it is not 0x8000. -/
def Core.cdb (c : Core) (i sub : Nat) : Int := c.entS 16 i sub

/-- `none` for 0x8000 (R8). -/
def Core.cdb? (c : Core) (i sub : Nat) : Option Int := if c.ent i sub = noCdb then none else some (c.cdb i sub)

def Core.setEnt (c : Core) (i sub v : Nat) : Core := { c with dict := c.dict.put entryDefault (entKey i sub) v }

def Core.setS (c : Core) (w i sub : Nat) (v : Int) : Core := c.setEnt i sub (rawOf w v)

/-- Writes a CDB, `none` as 0x8000 (R8). -/
def Core.setCdb (c : Core) (i sub : Nat) : Option Int → Core
  | none => c.setEnt i sub noCdb
  | some v => c.setEnt i sub (cdbRaw v)

def Core.setEntBit (c : Core) (i sub k : Nat) (b : Bool) : Core := c.setEnt i sub (setBit (c.ent i sub) k b)

def Core.entBit (c : Core) (i sub k : Nat) : Bool := bit (c.ent i sub) k

/-- Counts `n` events on a statistics counter: it stops at 0xFFFF_FFFF and sets its sticky flag (R324). -/
def Core.count (c : Core) (i sub n : Nat) : Core :=
  let v := c.ent i sub + n
  if v < 2 ^ 32 then c.setEnt i sub v
  else
    let c1 := c.setEnt i sub (2 ^ 32 - 1)
    if c1.sticky.contains (entKey i sub) then c1 else { c1 with sticky := c1.sticky ++ [entKey i sub] }

/-- Adds `n` to a counter of `w` bits that wraps (R326). -/
def Core.wrapAdd (c : Core) (w i sub n : Nat) : Core := c.setEnt i sub ((c.ent i sub + n) % 2 ^ w)

/-- A fresh open value: nothing constrains it. -/
def Core.draw (c : Core) : Nat × Core := (Config.free c.free, { c with free := c.free + 1 })

/-- A fresh open value in `lo` to `hi`. -/
def Core.drawIn (c : Core) (lo hi : Int) : Int × Core :=
  (lo + ((Config.free c.free : Int) % (hi - lo + 1)), { c with free := c.free + 1 })

/-- Record data fields of R463. -/
def d8 (n : Nat) : List Byte := leBytes 1 n
def d16 (n : Nat) : List Byte := leBytes 2 n
def d32 (n : Nat) : List Byte := leBytes 4 n
def dS16 (x : Int) : List Byte := leBytes 2 (rawOf 16 x)
def dS32 (x : Int) : List Byte := leBytes 4 (rawOf 32 x)
def dS64 (x : Int) : List Byte := leBytes 8 (rawOf 64 x)

/-- Whether station time is not common: status FREE, ACQUIRING or LOST (R399). -/
def Core.timeUncommon (c : Core) : Bool := c.ent 0x1221 0 ≠ 2 && c.ent 0x1221 0 ≠ 3

/-- Presents an event to the collector, stamped with the station clock at the tick it occurred (R16). -/
def Core.emit (c : Core) (source code : Nat) (data : List Byte) : Core :=
  { c with presented := c.presented ++ [⟨source, code, padTo 12 data, c.clock, c.timeUncommon, false⟩] }

/-- As `emit`, for the record that latches ISOLATE. -/
def Core.emitLatching (c : Core) (source code : Nat) (data : List Byte) : Core :=
  { c with presented := c.presented ++ [⟨source, code, padTo 12 data, c.clock, c.timeUncommon, true⟩] }

/-- Counts an episode in which a promise of level `lost` yields (R178, R179). -/
def Core.countPromise (c : Core) (lost : Nat) : Core := c.count 0x3180 lost 1

/-- An episode that no other record reports (R178): the item, the levels, the code of the event that caused it. -/
def Core.yieldPromise (c : Core) (item kept lost cause : Nat) : Core :=
  (c.countPromise lost).emit 35 0x0710 (d8 item ++ d8 kept ++ d8 lost ++ d16 cause)

/-- Whether the latest result of housekeeping channel `ch` carries a value that a consumer may take (R379): neither the
open-wire flag of the result itself nor the no-value flag. -/
def Core.hkUsable (c : Core) (ch : Nat) : Bool :=
  c.entBit 0x6231 (ch + 1) 0 && !c.entBit 0x6231 (ch + 1) 2 && c.hk.flagged.get (fun _ => 0) ch = 0

/-- Sets a cause bit of 0x1134; IRQ_N follows from it and the mask (R321). -/
def Core.irq (c : Core) (k : Nat) : Core := c.setEntBit 0x1134 0 k true

/-- IRQ_N asserted, low: a cause set and unmasked (R321). -/
def Core.irqAsserted (c : Core) : Bool := decide (Nat.land (c.ent 0x1134 0) (c.ent 0x1135 0) ≠ 0)

/-- Queues a persistent-state unit (R25). -/
def Core.persistUnit (c : Core) (keys : List (Nat × Nat)) : Core := { c with persist := c.persist ++ [keys] }

/-- Writes an entry held in persistent state: the value in force and its unit. -/
def Core.setPersistent (c : Core) (i sub v : Nat) : Core :=
  (c.setEnt i sub v).persistUnit [(entKey i sub, v)]

/-- Index of offset `off` of path `p`'s block (R89). -/
def pIdx (p off : Nat) : Nat := 0x2000 + p * 0x40 + off

/-- Index of offset `off` of slot `s`. -/
def sIdx (s off : Nat) : Nat := 0x4000 + s * 8 + off

/-- An entry of a path's block. -/
def Core.pe (c : Core) (p off sub : Nat) : Nat := c.ent (pIdx p off) sub
def Core.setPe (c : Core) (p off sub v : Nat) : Core := c.setEnt (pIdx p off) sub v

def Core.path (c : Core) (p : Nat) : PathSt := c.paths.get (fun _ => PathSt.init) p
def Core.setPath (c : Core) (p : Nat) (s : PathSt) : Core := { c with paths := c.paths.put (fun _ => PathSt.init) p s }
def Core.modPath (c : Core) (p : Nat) (f : PathSt → PathSt) : Core := c.setPath p (f (c.path p))
def Core.modCanc (c : Core) (p : Nat) (f : Canceller → Canceller) : Core :=
  c.modPath p (fun s => { s with canc := f s.canc })
def Core.modGuardPath (c : Core) (p : Nat) (f : GuardPath → GuardPath) : Core :=
  c.modPath p (fun s => { s with guard := f s.guard })

def Core.sink (c : Core) (k : Nat) : SinkSt := c.sinks.get (fun _ => SinkSt.init) k
def Core.setSink (c : Core) (k : Nat) (s : SinkSt) : Core := { c with sinks := c.sinks.put (fun _ => SinkSt.init) k s }
/-- Begins or ends the fade of path `p` at RFOUT `o`. -/
def Core.setFade (c : Core) (p o : Nat) (f : Option Fade) : Core :=
  let k := c.sink o
  c.setSink o { k with fades := match f with | some f => k.fades.insert p f | none => k.fades.drop p }
def Core.rfin (c : Core) (n : Nat) : RfinSt := c.rfins.get (fun _ => RfinSt.init) n
def Core.setRfin (c : Core) (n : Nat) (s : RfinSt) : Core := { c with rfins := c.rfins.put (fun _ => RfinSt.init) n s }
def Core.capture (c : Core) (n : Nat) : CaptureSt := c.captures.get (fun _ => CaptureSt.init) n
def Core.setCapture (c : Core) (n : Nat) (s : CaptureSt) : Core :=
  { c with captures := c.captures.put (fun _ => CaptureSt.init) n s }
def Core.lo (c : Core) (l : Nat) : LoSt := c.los.get (fun _ => LoSt.init) l
def Core.setLo (c : Core) (l : Nat) (s : LoSt) : Core := { c with los := c.los.put (fun _ => LoSt.init) l s }

/-- The tick `b` later than tick `a` of the 64-bit clock, as a count (R52). -/
def ticksFrom (a b : Nat) : Nat := (b + 2 ^ 64 - a % 2 ^ 64) % 2 ^ 64

/-- Whether tick `t` of the 64-bit clock stands at or before tick `x`, for ticks less than half the clock's range apart. -/
def atOrBefore (t x : Nat) : Bool := ticksFrom t x < 2 ^ 63

/-- The full birth tick of a 16-bit birth field (R60): the latest value of the station clock, at or before the present, whose
low 16 bits equal the field. A copy that R110 has aged may stand up to 15 ticks ahead of the present. -/
def Core.born (c : Core) (b : BitVec 16) : Nat :=
  (c.clock + 15 + 2 ^ 64 - ((c.clock + 15) % 65536 + 65536 - b.toNat) % 65536) % 2 ^ 64

/-- The birth field of a sample born on tick `t` (R11). -/
def birthField (t : Nat) : BitVec 16 := BitVec.ofNat 16 t

/-- The path field of a sample of path `p` (R11). -/
def pathField (p : Nat) : Fin 32 := ⟨p % 32, Nat.mod_lt _ (by decide)⟩

/-- Applies `f` for each number of `l` in turn. -/
def Core.each (c : Core) (l : List Nat) (f : Core → Nat → Core) : Core := l.foldl f c

/-- The path numbers (R421). -/
def allPaths : List Nat := List.range 32

/-- Durations. -/
def ms : Nat := ticksPerMs
def second : Nat := ticksPerSecond

/-- Whether an optional instant has been reached. -/
def Core.reached (c : Core) (d : Option Nat) : Bool := match d with | some t => t ≤ c.now | none => false

end Sys2Proof.Machine
end

