-- ==== Sys2Proof/Machine/Operands.lean ====
section
/-! DEFINITION. What the configuration says: rates, endpoint codes, LO bindings, converter frequencies, ROM entries and
latency minima, each read from a configuration in force or from the one a commit would produce. -/

namespace Sys2Proof.Machine

/-- A configuration as the checks read it: the value an entry has, or would have. -/
abbrev Cfg := Nat → Nat → Nat

/-- The configuration in force. -/
def Core.cfg (c : Core) : Cfg := c.ent

/-- The configuration a commit of `w` would produce: its values over those in force. -/
def Core.cfgWith (c : Core) (w : Tab Nat) : Cfg := fun i sub => (w.find? (entKey i sub)).getD (c.ent i sub)

/-- Ticks per path sample, rate units, interpolation of a rate code (R71). -/
def tsOf (rate : Nat) : Nat := 2 ^ (5 - clampN 1 4 rate)
def unitsOf (rate : Nat) : Nat := if rate = 0 then 0 else 2 ^ (clampN 1 4 rate - 1)
def interpOf (rate : Nat) : Nat := 24 * tsOf rate
/-- The rate in 10 Hz units: 30.72 MS/s times the units. -/
def rateHz10 (rate : Nat) : Nat := 3072000 * unitsOf rate
/-- T_dec and T_int, the CIC terms (R86). -/
def cicTicks (rate : Nat) : Nat := 5 * 2 ^ (4 - clampN 1 4 rate)

/-- The fields of an endpoint code (R76). -/
def epKind (e : Nat) : Nat := bits e 15 12
def epPort (e : Nat) : Nat := bits e 11 8
def epNum (e : Nat) : Nat := bits e 7 0

/-- Whether a code stands in the table of R76. -/
def epListed (e : Nat) : Bool :=
  match epKind e with
  | 0 => e = 0
  | 1 => epPort e = 0 && epNum e < 8
  | 2 => epPort e = 0 && epNum e < 2
  | 3 => epPort e < 3 && epNum e < 48
  | 4 => epPort e = 0 && epNum e < 8
  | 5 => epPort e < 3 && epNum e < 48
  | _ => false

/-- The codes each field of a path's configuration accepts at the write (R76). -/
def sourceOk (e : Nat) : Bool := epListed e && epKind e ≤ 3
def secondOk (e : Nat) : Bool := epListed e && (epKind e = 0 || epKind e = 3)
def sinkOk (e : Nat) : Bool := epListed e && (epKind e = 0 || epKind e = 4 || epKind e = 5)

/-- Whether an input code stands in the table of R216. -/
def inputOk (code : Nat) : Bool :=
  let n := bits code 11 0
  match bits code 15 12 with
  | 0 => code = 0 | 1 => n < 64 | 2 => n < 64 | 3 => n < 8 | 4 => n < 64 | 5 => n < 2 | 6 => n < 2 | 7 => n < 96
  | 8 => n < 32 | 9 => n < 20 | 10 => n < 32 | _ => false

/-- Readers of a path's configuration. -/
def Cfg.rate (g : Cfg) (p : Nat) : Nat := g (pIdx p 0) 1
def Cfg.configured (g : Cfg) (p : Nat) : Bool := g.rate p ≠ 0
def Cfg.source (g : Cfg) (p : Nat) : Nat := g (pIdx p 0) 2
def Cfg.second (g : Cfg) (p : Nat) : Nat := g (pIdx p 0) 3
def Cfg.sinks (g : Cfg) (p : Nat) : List Nat := ([4, 5, 6, 7].map (g (pIdx p 0))).filter (· ≠ 0)
def Cfg.rfouts (g : Cfg) (p : Nat) : List Nat := (g.sinks p).filterMap (fun e => if epKind e = 4 then some (epNum e) else none)
def Cfg.streams (g : Cfg) (p : Nat) : List Nat := (g.sinks p).filter (fun e => epKind e = 5)
def Cfg.offAir (g : Cfg) (p : Nat) : Bool := g.configured p && (epKind (g.source p) = 1 || epKind (g.source p) = 2)
/-- An off-air path with an RFOUT sink: it has a ceiling (R82, R146). -/
def Cfg.needsCeiling (g : Cfg) (p : Nat) : Bool := g.offAir p && !(g.rfouts p).isEmpty
def Cfg.response (g : Cfg) (p : Nat) : Nat := g (pIdx p 8) 1
def Cfg.blocks (g : Cfg) (p : Nat) : Nat := g (pIdx p 0x18) 1
def Cfg.isTdd (g : Cfg) (p : Nat) : Bool := g (pIdx p 0x28) 1 = 1
def Cfg.isUl (_ : Cfg) (p : Nat) : Bool := 16 ≤ p
/-- The configured paths bound to RFOUT `o`, and those whose source is endpoint `e`. -/
def Cfg.boundTo (g : Cfg) (o : Nat) : List Nat := allPaths.filter (fun p => g.configured p && (g.rfouts p).contains o)
def Cfg.streamPaths (g : Cfg) (e : Nat) : List Nat := allPaths.filter (fun p => g.configured p && (g.sinks p).contains e)
/-- The reference sink resolved: the one named, or the lowest-numbered RFOUT sink (R135). -/
def Cfg.refSink (g : Cfg) (p : Nat) : Option Nat :=
  if g (pIdx p 0x18) 3 = 0 then (g.rfouts p).min? else some (epNum (g (pIdx p 0x18) 3))

/-- The RFINs a source can draw on: the converter, or both branches of a Points pair. -/
def Cfg.rfinsOf (g : Cfg) (e : Nat) : List Nat :=
  match epKind e with
  | 1 => [epNum e]
  | 2 => [g (0x3250 + epNum e) 1, g (0x3250 + epNum e) 2].filter (· < 8)
  | _ => []

/-- The RFIN whose words a path receives now (R80): the converter, or the Points pair's selected branch. -/
def Core.rfinOf (c : Core) (p : Nat) : Option Nat :=
  let e := c.cfg.source p
  match epKind e with
  | 1 => some (epNum e)
  | 2 => some (c.ent (0x3250 + epNum e) (if c.ent (0x3250 + epNum e) 9 = 0 then 1 else 2))
  | _ => none

def Core.points (c : Core) (k : Nat) : PointsSt := c.fe.points.get (fun _ => PointsSt.init) k

/-- The branch of a Points pair selected for the word stamped on tick `t` (R80, R200). -/
def Core.branchAt (c : Core) (k t : Nat) : Nat :=
  match (c.points k).since with
  | some x => if atOrBefore x t then c.ent (0x3250 + k) 9 else (c.points k).was
  | none => c.ent (0x3250 + k) 9

/-- The RFIN whose word stamped on tick `t` a path receives (R80). -/
def Core.rfinAt (c : Core) (p t : Nat) : Option Nat :=
  let e := c.cfg.source p
  match epKind e with
  | 2 => some (c.ent (0x3250 + epNum e) (if c.branchAt (epNum e) t = 0 then 1 else 2))
  | _ => c.rfinOf p

/-- The LO a binding names, and whether the spectrum is inverted (R72). -/
def bindLo (b : Nat) : Option Nat := if b = 1 ∨ b = 2 then some 0 else if b = 3 ∨ b = 4 then some 1 else none
def bindInverts (b : Nat) : Bool := b = 2 || b = 4

/-- f_c in mHz from the RF centre frequency (10 Hz units), the binding, and the LOs' realised frequencies in mHz (R72). -/
def convFreq (rf b fLo : Nat) : Int :=
  let f : Int := (rf : Int) * 10000
  match b with
  | 1 | 3 => f - fLo
  | 2 | 4 => fLo - f
  | _ => f

/-- The realised frequency of the LO a binding names, from status (mHz). -/
def Cfg.loRealised (g : Cfg) (b : Nat) : Nat := match bindLo b with | some l => g (0x1210 + l) 8 | none => 0

def Cfg.rxBinding (g : Cfg) (p : Nat) : Nat := g (pIdx p 0) 9
def Cfg.txBinding (g : Cfg) (p : Nat) : Nat := g (pIdx p 0) 10
def Cfg.rxFreq (g : Cfg) (p : Nat) : Int := convFreq (g (pIdx p 0) 8) (g.rxBinding p) (g.loRealised (g.rxBinding p))
def Cfg.txFreq (g : Cfg) (p : Nat) : Int := convFreq (g (pIdx p 0) 8) (g.txBinding p) (g.loRealised (g.txBinding p))
/-- The sides of a path that meet a converter (R72). -/
def Cfg.rxSide (g : Cfg) (p : Nat) : Bool := g.offAir p
def Cfg.txSide (g : Cfg) (p : Nat) : Bool := g.configured p && !(g.rfouts p).isEmpty
/-- The LOs a path uses. -/
def Cfg.losOf (g : Cfg) (p : Nat) : List Nat :=
  (if g.rxSide p then (bindLo (g.rxBinding p)).toList else []) ++ (if g.txSide p then (bindLo (g.txBinding p)).toList else [])

/-- R73 for one side: f_c in mHz within 400 to 7,200 MHz and 0.4 × rate + 10 MHz away from the zone boundary. -/
def freqOk (f : Int) (boundary rate : Nat) : Bool :=
  let guard : Int := 4 * (rateHz10 rate : Int) * 10000 / 10 + 10000000000
  400000000000 ≤ f && f ≤ 7200000000000 && (f - boundary ≥ guard || (boundary : Int) - f ≥ guard)

def rxBoundary : Nat := 3932160000000
def txBoundary : Nat := 5898240000000

/-- Whether a path's converter frequencies meet R73. -/
def Cfg.freqsOk (g : Cfg) (p : Nat) : Bool :=
  (!g.rxSide p || freqOk (g.rxFreq p) rxBoundary (g.rate p)) && (!g.txSide p || freqOk (g.txFreq p) txBoundary (g.rate p))

/-- f_LO as the checks read it: the LO's realised frequency, or the one written while none is realised yet (R72). -/
def Cfg.loCheck (g : Cfg) (b : Nat) : Nat :=
  match bindLo b with
  | some l => if g (0x1210 + l) 8 = 0 then g (0x1210 + l) 1 * 1000000 else g (0x1210 + l) 8
  | none => 0

/-- Whether a path's transmit side lies above the transmit zone boundary. -/
def Cfg.above (g : Cfg) (p : Nat) : Bool :=
  decide ((txBoundary : Int) < convFreq (g (pIdx p 0) 8) (g.txBinding p) (g.loCheck (g.txBinding p)))

/-- The 48-bit NCO word (R75) for f_c in mHz and a converter rate in mHz. -/
def ncoWord (f : Int) (fs : Nat) : Nat := (roundDiv (f * 2 ^ 48) fs).toNat % 2 ^ 48
def rxRate : Nat := 7864320000000
def txRate : Nat := 11796480000000

/-- ROM fields (R97 to R103): each open value is held inside the bounds the manual states. -/
def romEdgeClass (id : Nat) : Nat := if id < 8 then 0xFF else ((id - 8) % 40) / 8
def romMask (id : Nat) : Nat := if id < 8 then 0xFF else ((id - 8) % 8) / 2
def romFlat (id : Nat) : Nat := if id < 8 then 0 else (id - 8) % 2
def romRate (id : Nat) : Nat :=
  if id < 8 then 0 else if id < 248 then 1 else if id < 688 then 2 else if id < 1328 then 3 else 4
/-- The family code of 0x2901.02: its place among the bandwidths, 1.4 MHz first (R97, R116). -/
def romFamily (id : Nat) : Nat :=
  if id < 8 then 0
  else
    let f := (id - 8) / 40
    if f < 6 then f + 1 else if f < 17 then f - 5 else if f < 33 then f - 16 else f - 32
/-- The minimum delay variant whose sections count and latency a delay-flat variant shares (R97). -/
def romBase (id : Nat) : Nat := id - romFlat id
/-- n_sec and L_resp bounds by rate and edge class (R102). -/
def secBounds (rate edge : Nat) : Nat × Nat :=
  match rate, edge with
  | 1, 0 => (4, 4) | 1, 1 => (6, 8) | 1, 2 => (10, 14) | 1, _ => (8, 12)
  | _, 0 => (4, 6) | _, 1 => (8, 12) | _, 2 => (12, 14) | _, _ => (10, 14)
def respBounds (rate edge : Nat) : Nat × Nat :=
  match rate, edge with
  | 1, 0 => (14, 18) | 1, 1 => (28, 40) | 1, 2 => (52, 76) | 1, _ => (40, 60)
  | 2, 0 => (10, 16) | 2, 1 => (24, 38) | 2, 2 => (44, 64) | 2, _ => (34, 52)
  | 3, 0 => (8, 12) | 3, 1 => (18, 30) | 3, 2 => (36, 52) | 3, _ => (26, 42)
  | _, 0 => (6, 10) | _, 1 => (16, 30) | _, 2 => (30, 46) | _, _ => (24, 38)
def settleBounds (edge : Nat) : Nat × Nat :=
  match edge with | 0 => (16, 40) | 1 => (48, 160) | 2 => (120, 480) | _ => (80, 320)
def delayBound (edge : Nat) : Nat := match edge with | 0 => 768 | 1 => 2048 | _ => 6144

def romNSec (id : Nat) : Nat :=
  if id = 0 then 0 else if id < 8 then 2
  else let b := secBounds (romRate id) (romEdgeClass id); clampN b.1 b.2 (Config.romSections (romBase id))
def romLResp (id : Nat) : Nat :=
  if id = 0 then 6 else if id < 8 then 8
  else let b := respBounds (romRate id) (romEdgeClass id); clampN b.1 b.2 (Config.romLatency (romBase id))
def romSettle (id : Nat) : Nat :=
  match id with
  | 0 => 4 | 1 => 12 | 2 => 12 | 3 => 12 | 4 => 8 | 5 => 8 | 6 => 8 | 7 => 8
  | _ => let b := settleBounds (romEdgeClass id); clampN b.1 b.2 (Config.romSettling id)
def romDelay (id : Nat) : Nat :=
  if id = 0 then 0 else if id < 8 then Config.romGroupDelay id % 2 ^ 16
  else clampN 0 (delayBound (romEdgeClass id)) (Config.romGroupDelay id)

/-- A path's whole delay, fraction and D_ph in ticks times 256 (R86, R108). -/
def Cfg.whole (g : Cfg) (p : Nat) : Nat := g (pIdx p 0x0A) 1
def Cfg.frac (g : Cfg) (p : Nat) : Nat := g (pIdx p 0x0A) 2
def Cfg.dph256 (g : Cfg) (p : Nat) : Nat := (g.whole p * 256 + g.frac p) * tsOf (g.rate p)

/-- F_ref (R86). -/
def Cfg.fRef (g : Cfg) (p : Nat) : Nat := 12 + romNSec (g.response p)

/-- The minimum of LATENCY (`toRfout`) or of the stream latency (R86); 0 where it governs no sink. -/
def Cfg.lMin (g : Cfg) (p : Nat) (toRfout : Bool) : Nat :=
  if (if toRfout then (g.rfouts p).isEmpty else (g.streams p).isEmpty) || !g.configured p then 0
  else
    let rx := if g.offAir p then 3 + cicTicks (g.rate p) else 0
    let tx := if toRfout then cicTicks (g.rate p) + 5 else 0
    max 88 (ceilDiv ((rx + romLResp (g.response p) + g.fRef p + tx) * 256 + g.dph256 p) 256)

/-- The converter terms of R60 for a sink. -/
def Cfg.convTerms (g : Cfg) (p : Nat) (toRfout : Bool) : Nat :=
  (if g.offAir p then 3 else 0) + (if toRfout then 5 else 0)

/-- The settling count S of a path, and the span F of its phase delay (R104, R106). -/
def Cfg.settle (g : Cfg) (p : Nat) : Nat := romSettle (g.response p)
def Cfg.fSpan (g : Cfg) (p : Nat) : Nat := if g.frac p = 0 then 0 else 3

/-- The samples a reset makes invalid at the output of the phase-delay stage, by cause (R105, R106). The codes 8 and 9 are
the model's own: a changed receive frequency and a changed phase delay, which invalidate without a reset. -/
def Cfg.resetCount (g : Cfg) (p cause : Nat) : Nat :=
  match cause with
  | 7 => 0
  | 9 => 4
  | 2 => g.settle p + g.fSpan p
  | _ => (if g.offAir p then 5 else 0) + g.settle p + g.fSpan p

end Sys2Proof.Machine
end

