-- ==== Sys2Proof/Machine/Flags.lean ====
section
/-! DEFINITION. Status bits computed from the state: the mode causes and the mode (R29), the gates and mute reasons of a
path (R35, R83), and the status summary (R418). -/

namespace Sys2Proof.Machine

/-- The word whose listed bits are set where their condition holds. -/
def flagMask (l : List (Nat × Bool)) : Nat := maskOf (l.filterMap (fun e => if e.2 then some e.1 else none))

/-- Mode codes of 0x1100. -/
def mDepot : Nat := 0
def mShunt : Nat := 1
def mRun : Nat := 2
def mCaution : Nat := 3
def mStand : Nat := 4
def mIsolate : Nat := 5

def Core.mode (c : Core) : Nat := c.ent 0x1100 0
def Core.base (c : Core) : Nat := c.ent 0x1101 0

/-- The thermal SHUTDOWN flag (R343). -/
def Core.thermalDown (c : Core) : Bool := c.entBit 0x6001 0 2

/-- Node-wide STAND by the Guard: NETSTOP_N or a Line stop (R171, R172). -/
def Core.guardStand (c : Core) : Bool := c.guard.netStand || c.ent 0x3104 2 = 1

/-- The thermal backoff of ladder step 4 (R344), in 0.01 dB. -/
def Core.thermalBackoff (c : Core) : Int := if c.ent 0x6004 0 = 4 then -300 else 0

/-- The causes of 0x1102. -/
def Core.causes (c : Core) : Nat :=
  flagMask [(0, c.latched), (1, c.thermalDown), (2, c.guardStand), (3, decide (c.base = mStand)),
    (4, decide (c.cdb 0x3101 0 ≠ 0)), (5, decide (c.thermalBackoff ≠ 0)), (6, decide (c.cdb 0x5041 0 ≠ 0))]

/-- The mode in force (R29). -/
def modeOf (latched shutdown guardStand : Bool) (base backoffCauses : Nat) : Nat :=
  if latched then mIsolate
  else if shutdown || guardStand || base = mStand then mStand
  else if base = mDepot || base = mShunt then base
  else if backoffCauses ≠ 0 then mCaution
  else mRun

def Core.modeNow (c : Core) : Nat := modeOf c.latched c.thermalDown c.guardStand c.base (bits c.causes 6 4)

/-- The largest backoff the active causes demand (R30), 0 or negative. -/
def Core.backoffDemand (c : Core) : Int := min (c.cdb 0x3101 0) (min c.thermalBackoff (c.cdb 0x5041 0))

/-- Whether the mode mutes RF outputs hard: thermal shut-down, Guard STAND or ISOLATE (R34). -/
def Core.modeHard (c : Core) : Bool := c.latched || c.thermalDown || c.guardStand

/-- The clock gate (R35, R50, R74). -/
def Core.clockGate (c : Core) (p : Nat) : Bool :=
  c.entBit 0x1201 0 0 && (c.cfg.losOf p).all (fun l => c.entBit (0x1210 + l) 3 0) && c.cfg.freqsOk p &&
    !(c.path p).offSide

/-- The source gate: converter powered and calibrated, or Line stream present (R35), a second source's stream standing in for
the main one (R79). A sag episode, which forces every
release to zero, changes neither the mode nor the live paths (R356). -/
def Core.sourceGate (c : Core) (p : Nat) : Bool :=
  match epKind (c.cfg.source p) with
  | 3 => c.inbound.contains (c.cfg.source p) || c.inbound.contains (c.cfg.second p)
  | _ => match c.rfinOf p with
    | some n => n < 8 && (c.supply.forced || (c.entBit 0x2803 (n + 1) 0 && c.entBit 0x2803 (n + 1) 1))
    | none => false

/-- The configuration gate: configured, ROM vouched for, no probe entry outside SHUNT (R35, R100, R114). -/
def Core.configGate (c : Core) (p : Nat) : Bool :=
  c.cfg.configured p && c.ent 0x2903 1 = 0 && (8 ≤ c.cfg.response p || c.mode = mShunt)

/-- The ceiling gate: a source for the ceiling (R147). -/
def Core.ceilingGate (c : Core) (p : Nat) : Bool := !c.cfg.needsCeiling p || c.pe p 0x1B 5 ≠ 0

/-- The TDD timing gate (R196): met, or met in holdover for a path already live. -/
def Core.tddGate (c : Core) (p : Nat) : Bool := !c.cfg.isTdd p || c.pe p 0x28 2 = 2 || c.pe p 0x28 2 = 3

/-- A Guard mute on the path or the node (R157): bits 0, 3, 5 and 7 of P+0x24.01, or a node STAND or ISOLATE. -/
def Core.guardMuted (c : Core) (p : Nat) : Bool :=
  let m := c.pe p 0x24 1
  bit m 0 || bit m 3 || bit m 5 || bit m 7 || c.guardStand || c.latched

/-- Whether the mode mutes a path, or the SHUNT limit holds it (R26, R27, R83 bit 1). -/
def Core.modeMutes (c : Core) (p : Nat) : Bool :=
  !(c.mode = mRun || c.mode = mCaution || c.mode = mShunt) || (c.path p).guard.shuntMute

/-- The mute reasons of a path (R83). An unconfigured path reads bit 4 alone. -/
def Core.muteReasons (c : Core) (p : Nat) : Nat :=
  if !c.cfg.configured p then 0x0010
  else flagMask [(0, c.pe p 3 0 ≠ 0), (1, c.modeMutes p), (2, c.guardMuted p), (3, c.entBit 0x6005 0 p),
    (4, !c.configGate p), (5, !c.clockGate p), (6, c.pe p 9 1 ≠ 0), (7, !c.sourceGate p), (8, !c.ceilingGate p),
    (9, !c.tddGate p)]

/-- Whether one of the reasons mutes hard (R34, R35, R50, R114, R193). -/
def Core.hardReason (c : Core) (reasons : Nat) : Bool :=
  (bit reasons 1 && c.modeHard) || bit reasons 2 || (bit reasons 4 && c.ent 0x2903 1 ≠ 0) || bit reasons 5 ||
  bit reasons 7 || bit reasons 9

/-- The bits of 0x1004 (R418), from the entries each names. -/
def Core.summary (c : Core) : Nat :=
  let ports := [0, 1, 2]
  flagMask [(0, decide (c.mode ≠ mRun)), (1, c.entBit 0x1102 0 0),
    (2, decide (Nat.land (c.ent 0x280A 0) (2 ^ 32 - 1 - c.ent 0x110A 0) ≠ 0)),
    (3, allPaths.any (fun p => c.pe p 0x24 1 ≠ 0) || bits (c.ent 0x3100 0) 3 0 ≠ 0),
    (4, decide (c.ent 0x1221 0 ≠ 2)),
    (5, allPaths.any (fun p => c.cfg.configured p && c.cfg.isTdd p) && c.ent 0x3202 0 ≠ 3),
    (6, decide (c.ent 0x6000 0 ≠ 0)),
    (7, c.entBit 0x6100 0 1 || !c.entBit 0x6100 0 3 || !c.entBit 0x6100 0 5),
    (8, c.entBit 0x5000 0 0 && c.ent 0x5002 0 ≠ 2),
    (9, ports.any (fun q => c.ent (0x5110 + q) 1 = 1 && c.ent (0x5110 + q) 3 < 3) ||
      (c.ent 0x5102 0 ≠ 3 && c.ent 0x5102 0 ≠ 0)),
    (10, c.time.slackFlagged),
    (11, c.entBit 0x6400 0 2 || c.ent 0x6407 0 ≠ 0),
    (12, decide (c.ent 0x4385 0 ≠ 0)),
    (13, c.ent 0x4801 3 = 3 || c.ent 0x4811 3 = 3 || [0, 1, 2, 3].any (fun k => 4 ≤ c.ent (0x6320 + k) 1)),
    (14, decide (c.ent 0x5205 0 = 1)),
    (15, c.entBit 0x1106 0 3 || c.entBit 0x1106 0 4 || c.entBit 0x1106 0 6 || c.entBit 0x1106 0 7)]

end Sys2Proof.Machine
end

