-- ==== Sys2Proof/Machine/Muting.lean ====
section
/-! DEFINITION. What follows from a change of cause: the gain in force, the Guard limit, the mute reasons and ramps of a
path, the canceller's adaptation state, and the mode in force (R29, R34, R81, R83, R141, R158). -/

namespace Sys2Proof.Machine

/-- Whether a level loop of the Signal Box is bound to the path (R81, R230): an enabled slot that writes its level term. -/
def Core.loopSlot (c : Core) (p : Nat) : Option Nat :=
  (List.range 64).find? (fun s => c.ent (sIdx s 0) 1 ≠ 0 && c.ent (sIdx s 0) 2 = 1 && c.ent (sIdx s 0) 6 = 0x1000 + p)

/-- The least of a list of optional limits and a value. -/
def leastOf (x : Int) : List (Option Int) → Int
  | [] => x
  | none :: r => leastOf x r
  | some y :: r => leastOf (min x y) r

/-- The level term of a path with no level loop (R81, R230): the requested gain plus the backoff in force. It moves at a
write of the gain and at an output phase. -/
def Core.refreshLevel (c : Core) (p : Nat) : Core :=
  if !c.cfg.configured p || (c.loopSlot p).isSome then c
  else c.setCdb (pIdx p 2) 2 (some (c.cdb (pIdx p 2) 1 + c.cdb 0x1109 0))

/-- The gain of a path under a level term (R13, R81): the least of that term, the ceiling, the Guard limit and, in SHUNT, the
limit of R27. -/
def Core.gainUnder (c : Core) (p : Nat) (level : Int) : Int :=
  leastOf level [c.cdb? (pIdx p 2) 3, c.cdb? (pIdx p 2) 4, if c.mode = mShunt then (c.path p).guard.shuntLimit else none]

/-- The level term that a sample of path `p` born at `b` takes (R211): the one in force, or the one that the first output
phase after `b` replaced. -/
def Core.levelFor (c : Core) (p b : Nat) : Int :=
  match ((c.path p).levelPast.filter (fun e => !atOrBefore e.1 b)).getLast? with
  | some e => e.2
  | none => c.cdb (pIdx p 2) 2

/-- The applied gain of a path; 0x8000 while not configured. -/
def Core.refreshGain (c : Core) (p : Nat) : Core :=
  if !c.cfg.configured p then (c.setPe p 2 5 noCdb)
  else
    let g := c.gainUnder p (c.cdb (pIdx p 2) 2)
    if c.pe p 2 5 = cdbRaw g then c else c.setCdb (pIdx p 2) 5 (some g)

/-- The state codes of P+0x01.01. -/
def psNone : Nat := 0
def psMuted : Nat := 1
def psUp : Nat := 2
def psLive : Nat := 3
def psDown : Nat := 4

/-- The adaptation state that holds apart from the present sample (R141): the lowest code other than 1 that applies. -/
def Core.adaptState (c : Core) (p : Nat) : Nat :=
  if c.cfg.blocks p = 0 || !c.cfg.configured p then 0
  else if c.pe p 0x19 7 = 2 then 2
  else if c.mode = mDepot then 3
  else if c.pe p 0x19 5 = 1 then 4
  else if c.entBit 0x3003 0 0 then 5
  else if (c.path p).canc.phase ≠ 0 then 6
  else 1

def Core.refreshAdapt (c : Core) (p : Nat) : Core := c.setPe p 0x19 7 (c.adaptState p)

/-- Marks the start or end of a freeze (R141, R146) at the estimate flags' bit 5: the values held are those of the last valid window. -/
def Core.markFreeze (c : Core) (p : Nat) : Core :=
  let f := c.pe p 0x19 5 = 1 || c.entBit 0x3003 0 0
  let k := (c.path p).canc
  if f = k.frozen then c
  else
    let c1 := c.setEntBit (pIdx p 0x1A) 10 5 f
    if f then
      c1.modCanc p (fun k => { k with
        frozen := true
        iHold := if k.liveHeld then c.cdb? (pIdx p 0x1A) 1 else none
        sHold := if k.liveHeld then c.cdb? (pIdx p 0x1A) 2 else none })
    else c1.modCanc p (fun k => { k with frozen := false, iHold := none, sHold := none })

/-- Ends a running sweep with a result (R151): record 0x0607, and the path's adaptation goes on. -/
def Core.endSweep (c : Core) (p result : Nat) : Core :=
  if (c.path p).canc.phase = 0 then c
  else (((c.modCanc p (fun k => { k with phase := 0, remaining := 0 })).setPe p 0x1C 1 result).emit 34 0x0607
    (d8 p ++ d8 result)).refreshAdapt p

/-- Stops a live or ramping path at once (R34): record 0x0303 where it was live or ramping up. -/
def Core.hardMute (c : Core) (p reasons : Nat) : Core :=
  let st := c.pe p 1 1
  let c1 := (c.setPe p 1 1 psMuted).setEntBit 0x110A 0 p false
  let c2 := c1.modPath p (fun s => { s with ramp := none, placed := none })
  let c3 := if st = psUp || st = psLive || st = psDown then
      (c2.modCanc p (fun k => { k with notLiveSince := c.now })) else c2
  if st = psUp || st = psLive then c3.emit (2 + p) 0x0303 (d16 reasons) else c3

/-- Begins a ramp down of a live path, or reverses its ramp up (R34, R253): record 0x0303. -/
def Core.rampDown (c : Core) (p reasons : Nat) : Core :=
  let s := c.path p
  let k := match s.ramp with | some ⟨true, k⟩ => 65 - k | _ => 0
  let c1 := (c.setEntBit 0x110A 0 p false).emit (2 + p) 0x0303 (d16 reasons)
  let c2 := c1.modPath p (fun s => { s with canc := { s.canc with notLiveSince := c.now } })
  if 64 ≤ k then (c2.setPe p 1 1 psMuted).modPath p (fun s => { s with ramp := some ⟨false, 64⟩ })
  else (c2.setPe p 1 1 psDown).modPath p (fun s => { s with ramp := some ⟨false, k⟩ })

/-- Recomputes the mute reasons of a path and acts on them: an unconfigured path leaves, a live path with a reason mutes
hard or by a ramp, and a detector stops on a path that mutes (R35, R83, R161). -/
def Core.refreshPath (c : Core) (p : Nat) : Core :=
  let r := c.muteReasons p
  let st := c.pe p 1 1
  -- the tick on which the last gate is met
  let c0 := if r ≠ 0 || c.pe p 1 2 ≠ 0 then
      c.modPath p (fun s => { s with gateAt := if r = 0 then some c.clock else none, armed := s.armed && r = 0 }) else c
  let c1 := c0.setPe p 1 2 r
  let c2 :=
    if !c.cfg.configured p then
      if (st = psDown || (c.path p).placed.isSome) && (c.path p).before.isSome then c1
      else (if st = psUp || st = psLive || st = psDown then c1.hardMute p r else c1).setPe p 1 1 psNone
    else if r = 0 then (if st = psNone then c1.setPe p 1 1 psMuted else c1)
    else if st = psUp || st = psLive then
      (if c1.hardReason r then c1.hardMute p r
       -- a commit that invalidates the output has placed its ramp (R107)
       else if r = 0x0040 && (c.path p).placed.isSome then c1 else c1.rampDown p r)
    else if st = psDown && c1.hardReason r then c1.hardMute p r
    else if st = psNone then c1.setPe p 1 1 psMuted
    else c1
  -- a hard mute also stops what a requested ramp has left in the retimers
  let rest := (c2.pe p 1 1 = psMuted || c2.pe p 1 1 = psNone)
  let c3 := if rest && (c2.path p).ramp.isSome && (c2.hardReason r || c2.modeHard) then
      c2.modPath p (fun s => { s with ramp := none }) else c2
  let c4 := if rest && (c3.pe p 0x20 4 = 1 || c3.pe p 0x20 4 = 2) then c3.setPe p 0x20 4 0 else c3
  c4.refreshAdapt p

def Core.refreshPaths (c : Core) : Core := c.each allPaths Core.refreshPath

/-- The backoff terms of a path's Guard limit (R158), each 0 or negative. -/
def Core.guardTerms (c : Core) (p : Nat) : List Int :=
  [if c.pe p 0x21 6 = 1 then c.cdb (pIdx p 0x21) 5 else 0, c.cdb (pIdx p 0x22) 4, c.cdb (pIdx p 0x23) 3,
   if (c.path p).guard.reflBackoff then -600 else 0]

/-- The causes of P+0x24.01. -/
def Core.guardCauses (c : Core) (p : Nat) : Nat :=
  let g := (c.path p).guard
  flagMask [(0, c.pe p 0x20 4 = 3), (1, c.pe p 0x21 6 = 1), (2, c.pe p 0x22 4 ≠ 0), (3, g.overload),
    (4, c.pe p 0x23 3 ≠ 0), (5, g.oobLift.isSome), (6, g.reflBackoff), (7, g.reflMute)]

/-- How many bits of `new` are not in `old`. -/
def newBits (old new : Nat) : Nat := ((List.range 16).filter (fun k => bit new k && !bit old k)).length

/-- Brings a path's Guard summary, reference gain, limit, gain and mute state up to date after a Guard decision (R157,
R158): new causes count as actions, raise the Guard IRQ cause and abort the path's sweep (R173). -/
def Core.guardRefresh (c : Core) (p : Nat) : Core :=
  let old := c.pe p 0x24 1
  let new := c.guardCauses p
  let c1 := c.setPe p 0x24 1 new
  let n := newBits old new
  let c2 := if n = 0 then c1 else ((c1.count (pIdx p 0x24) 3 n).irq 5).endSweep p 6
  let mutes := if c.ent 0x5002 0 = 1 || c.ent 0x5002 0 = 2 then
      [(0, 0x0701), (3, 0x0706), (5, 0x0709), (7, 0x070B)].filter (fun e => bit new e.1 && !bit old e.1) else []
  let c2 := mutes.foldl (fun c e => c.yieldPromise p 2 5 e.2) c2
  let b := (c2.guardTerms p).foldl min 0
  let c3 :=
    if b = 0 then (c2.setPe p 0x24 2 noCdb).setPe p 2 4 noCdb
    else
      let c' := if c2.pe p 0x24 2 = noCdb then c2.setPe p 0x24 2 (if c2.pe p 2 5 = noCdb then 0 else c2.pe p 2 5) else c2
      c'.setCdb (pIdx p 2) 4 (some (c'.cdb (pIdx p 0x24) 2 + b))
  (c3.refreshGain p).refreshPath p

/-- Whether a converter is to be powered: its role, thermal shut-down, ISOLATE for a transmit converter, and a sag
episode (R34, R68, R356). -/
def Core.wantsPower (c : Core) (tx : Bool) (n : Nat) : Bool :=
  c.ent (if tx then 0x2801 else 0x2800) (n + 1) ≠ 0 && !c.thermalDown && !(tx && c.latched) &&
    c.supply.episodeAt.isNone

/-- Brings the mix-mode bit of every powered RFOUT up to date (R73): its paths lie above the zone boundary. -/
def Core.refreshMix (c : Core) : Core :=
  c.each (List.range 8) (fun c o =>
    c.setEntBit 0x2804 (o + 1) 2 (c.entBit 0x2804 (o + 1) 0 && (c.cfg.boundTo o).any c.cfg.above))

/-- Powers converters that are to be powered, and sets the time by which those that are not power down (R34, R68). -/
def Core.refreshConverters (c : Core) : Core :=
  if c.phase ≠ .ready then c
  else
    let one := fun (tx : Bool) (c : Core) (n : Nat) =>
      let i := if tx then 0x2804 else 0x2803
      let on := c.entBit i (n + 1) 0
      if c.wantsPower tx n && !on then
        { (c.setEntBit i (n + 1) 0 true) with calibrateBy := some (c.now + 1966080) }
      else if !c.wantsPower tx n && on && c.powerDownBy.isNone then { c with powerDownBy := some (c.now + 491520) }
      else c
    ((c.each (List.range 8) (one false)).each (List.range 8) (one true)).refreshMix

/-- Enters a mode (R29, R30): record 0x0101, IRQ cause 4, the probe entries' record 0x0405 on leaving SHUNT (R100), the end
of every sweep on leaving SHUNT (R151), the stop of the Guard's timers in ISOLATE (R173), and every path's mute state
(R34). -/
def Core.enterMode (c : Core) (new : Nat) : Core :=
  let old := c.mode
  if old = new then c.refreshConverters.refreshPaths
  else
    let c1 := ((c.setEnt 0x1100 0 new).emit 0 0x0101 (d8 old ++ d8 new ++ d32 (c.ent 0x1102 0))).irq 4
    let c2 := if old = mShunt then
        c1.each allPaths (fun c p =>
          let c' := (c.endSweep p 6).modGuardPath p (fun g => { g with shuntLimit := none })
          if c'.cfg.configured p && c'.cfg.response p < 8 then c'.emit (2 + p) 0x0405 [] else c')
      else c1
    let c3 := if new = mIsolate then { c2 with guard := { c2.guard with isolateSince := some c2.now } } else c2
    c3.refreshConverters.refreshPaths

/-- A STANDBY in step has the pair's mode, as the ACTIVE chip computes it (R260); its own latch and shut-down still act. -/
def Core.followsPair (c : Core) : Bool :=
  c.ent 0x5001 0 = 2 && (c.ent 0x5002 0 = 1 || c.ent 0x5002 0 = 2) && !c.latched && !c.thermalDown

/-- Derives causes, backoff in force and mode (R29, R30). -/
def Core.recompute (c : Core) : Core :=
  let c0 := (c.setEnt 0x1102 0 c.causes).setCdb 0x1109 0 (some c.backoffDemand)
  c0.enterMode (if c0.followsPair then c0.mode else c0.modeNow)

/-- Latches ISOLATE (R175): the latch and its cause, the record 0x0703 whose sequence the collector fills in, and the
mode. A latch already set keeps its own record. -/
def Core.latch (c : Core) (cause : Nat) : Core :=
  if c.latched then c
  else
    let c1 := { c with latched := true, guard := { c.guard with latchCause := cause } }
    let c2 := ((c1.setEnt 0x1103 2 cause).setEnt 0x1103 3 c.clock).emitLatching 35 0x0703 (d8 0xFF ++ d16 cause)
    (c2.irq 5).recompute

end Sys2Proof.Machine
end

