-- ==== Sys2Proof/Machine/Route.lean ====
section
/-! DEFINITION. Line packets: the envelope (R296) and the choice of ports (R297, R298). -/

namespace Sys2Proof.Machine

def Core.port (c : Core) (q : Nat) : PortSt := c.line.ports.get (fun _ => PortSt.init) q
def Core.setPort (c : Core) (q : Nat) (p : PortSt) : Core :=
  { c with line := { c.line with ports := c.line.ports.put (fun _ => PortSt.init) q p } }
def Core.modPort (c : Core) (q : Nat) (f : PortSt → PortSt) : Core := c.setPort q (f (c.port q))

/-- The node address in use, and the pair address (R294). -/
def Core.address (c : Core) : Nat := c.ent 0x5103 1
def Core.pairAddress (c : Core) : Nat := c.ent 0x5101 3
def Core.isTerminus (c : Core) : Bool := c.ent 0x5101 1 = 1
def Core.framed (c : Core) (q : Nat) : Bool := 3 ≤ c.ent (0x5110 + q) 3
def Core.ringClosed (c : Core) : Bool := c.entBit 0x5100 0 3
/-- The time port as a port number (0x5103.04 counts from 1). -/
def Core.timePort (c : Core) : Option Nat := if c.ent 0x5103 4 = 0 then none else some (c.ent 0x5103 4 - 1)

/-- The Line ports. -/
def ports3 : List Nat := [0, 1, 2]

/-- The roles of R245. -/
def Core.isActive (c : Core) : Bool := c.ent 0x5001 0 = 1
def Core.isStandby (c : Core) : Bool := c.ent 0x5001 0 = 2
/-- Whether this chip serves a request to its pair address itself: it holds the role named, or the pair is UNPAIRED or has no
other chip to pass it to, and refuses it (R294, R312). A packet never goes back to its arrival port. -/
def Core.pairTakes (c : Core) (role : Nat) (arrival : Option Nat) : Bool :=
  role = 0 || (if role = 2 then c.isStandby else c.isActive) || c.ent 0x5002 0 = 0 || c.ent 0x5007 0 = 0 ||
    !ports3.any (fun x => c.framed x && some x ≠ arrival && c.ent (0x5110 + x) 4 = c.ent 0x5007 0)

/-- The wrapper of an HSPI request (R319), and the request it carries. -/
def hspiDest (b : List Byte) : Nat := field b 0 2
def hspiRole (b : List Byte) : Nat := field b 2 1 % 4
def hspiTimeout (b : List Byte) : Nat := field b 4 2
def hspiBody (b : List Byte) : List Byte := (b.drop 8).take (field b 6 2)

/-- Whether a request from the host is for this node's own dictionary: 0x0000, its own address, or its pair address where no
other chip can take the role named (R294, R312). -/
def Core.hspiLocal (c : Core) (b : List Byte) : Bool :=
  let d := hspiDest b
  d = 0 || d = c.address || (d = c.pairAddress && c.pairTakes (hspiRole b) none)

/-- A packet: its envelope and body (R296). -/
def packetOf (dest source role hop : Nat) (body : List Byte) : List Byte :=
  let h := d16 dest ++ d16 source ++ d8 (role % 4) ++ d8 0 ++ d16 hop ++ d16 body.length
  let all := h ++ d16 (crc16 h) ++ body
  all ++ d32 (crc32 all)

/-- The ports a packet for `dest` leaves by; `arrival` is its arrival port, `none` for a packet of this node (R297). -/
def Core.portsFor (c : Core) (dest : Nat) (arrival : Option Nat) : List Nat :=
  let others := [0, 1, 2].filter (fun q => c.framed q && some q ≠ arrival)
  if dest = 0xFFFF then
    if c.ringClosed then
      (if arrival = some 1 then [] else others.filter (fun q => q = 1 || q = 2))
    else others
  else
    let learned := (c.line.learned.find? dest).map Learned.port
    if c.ringClosed && learned ≠ some 2 then ([1].filter c.framed)
    else match learned with
      | some q => if arrival = some q then [] else [q].filter c.framed
      | none =>
        if c.isTerminus || (arrival.isSome && arrival = c.timePort) then others
        else (c.timePort.toList).filter (fun q => c.framed q && some q ≠ arrival)

/-- Queues a packet at each of its ports: forwarded packets before the node's own (R299). -/
def Core.queuePacket (c : Core) (ports : List Nat) (forward : Bool) (packet : List Byte) : Core :=
  ports.foldl (fun c q => c.modPort q (fun p =>
    if forward then { p with forward := p.forward ++ [packet] } else { p with own := p.own ++ [packet] })) c

/-- Originates a packet toward `dest`, and whether a FRAMED port took it. -/
def Core.originate (c : Core) (dest source role : Nat) (body : List Byte) : Core × Bool :=
  let ports := c.portsFor dest none
  if ports.isEmpty then (c, false)
  else ((c.queuePacket ports false (packetOf dest source role (c.ent 0x5101 5) body)).wrapAdd 32 0x5130 1 1, true)

end Sys2Proof.Machine
end

