-- ==== Sys2Proof/Machine/Access.lean ====
section
/-! DEFINITION. The transaction of the object dictionary: the checks of R309, the response of R306 on each transport, and
the service of one write. -/

namespace Sys2Proof.Machine

/-- A change of the part beside its book, transports and boundary scan. -/
def State.onCore (s : State) (f : Core → Core) : State := { s with core := f s.core }

/-- What a write does once R309 steps 1 to 10 pass: abort code, response flags, and the state. -/
abbrev Act : Type := State → Nat × Nat × State

/-- An action on the core alone that answers a code. -/
def coreAct (f : Core → Nat × Core) : Act := fun s => let r := f s.core; (r.1, 0, { s with core := r.2 })

/-- Event in a second (R399): the first of its kind in a second opens a window that ends one second later and writes the
record with the count then. -/
def Core.tally (c : Core) (source code : Nat) (head : List Byte) : Core :=
  if c.seconds.any (fun w => w.source = source && w.code = code && w.head = head) then
    { c with seconds := c.seconds.map (fun w =>
        if w.source = source && w.code = code && w.head = head then { w with count := w.count + 1 } else w) }
  else { c with seconds := c.seconds ++ [⟨source, code, head, 1, c.now + second, true⟩] }

/-- Counts an event in its window of 491,520 ticks: the record is written with the count when the window ends. -/
def Core.tallyMs (c : Core) (source code : Nat) (head : List Byte) (n : Nat) : Core :=
  if n = 0 then c
  else if c.seconds.any (fun w => w.source = source && w.code = code && w.head = head) then
    { c with seconds := c.seconds.map (fun w =>
        if w.source = source && w.code = code && w.head = head then { w with count := w.count + n } else w) }
  else { c with seconds := c.seconds ++ [⟨source, code, head, n, c.now + 491520 - c.clock % 491520, true⟩] }

/-- As `tally`, where the record's item is that of the first event of the second and every event counts. -/
def Core.tallyOne (c : Core) (source code : Nat) (head : List Byte) : Core :=
  match c.seconds.find? (fun w => w.source = source && w.code = code && w.counted) with
  | some w => c.tally source code w.head
  | none => c.tally source code head

/-- The first event of a kind in a second writes its record at once; further ones in that second write none. -/
def Core.firstInSecond (c : Core) (source code item : Nat) (data : List Byte) : Core :=
  if c.seconds.any (fun w => w.source = source && w.code = code && w.head = d8 item && !w.counted) then c
  else { (c.emit source code data) with
    seconds := c.seconds ++ [⟨source, code, d8 item, 0, c.now + second, false⟩] }

/-- The originator as 0x1104.04 encodes it. -/
def transportCode : Transport → Nat
  | .line => 1
  | .hspi => 2
  | .twt => 3
def originator (o : Origin) : Nat := o.source.toNat + transportCode o.transport * 2 ^ 16

/-- The address part of the originator: 0 local. -/
def originAddress (o : Origin) : Nat := if o.transport = .line then o.source.toNat else 0

/-- The largest write and read values of a transport (R308). -/
def maxWrite : Transport → Nat
  | .line => 986
  | .hspi => 4096
  | .twt => 226
def maxRead : Transport → Nat
  | .line => 992
  | .hspi => 4096
  | .twt => 232

/-- Step 3 of R309 (R312): role selector and role epoch. -/
def Core.roleCheck (c : Core) (o : Origin) : Nat :=
  let role := if o.transport = .twt then 0 else o.role.toNat
  let epoch := o.epoch.toNat
  let held := c.ent 0x5003 0
  if !o.toPair then
    if role ≠ 0 then 0x0601 else if epoch ≠ 0 && epoch ≠ held then 0x0502 else 0
  else if role = 0 then 0x0601
  else if role ≠ 3 && epoch = 0 then 0x0601
  else if c.ent 0x5002 0 = 0 then 0x0503
  else if c.ent 0x5001 0 ≠ (if role = 2 then 2 else 1) then 0x0503
  else if epoch ≠ 0 && epoch ≠ held then 0x0502
  else 0

/-- Entries served only at a terminus or only at a station (R339). -/
def Core.servedHere (c : Core) (i : Nat) : Bool :=
  if i = 0x5220 || i = 0x5222 || (0x5231 ≤ i && i ≤ 0x5236) then c.isTerminus
  else if i = 0x5221 || i = 0x5223 then !c.isTerminus
  else true

def isJoinEntry (i : Nat) : Bool := 0x5220 ≤ i && i ≤ 0x5223

/-- Whether a transport can carry an entry (R308). -/
def carries (t : Transport) (r : Row) (limit : Nat) : Bool :=
  r.ty.width ≤ limit && !(t ≠ .hspi && r.marks.contains .hspiOnly) && !(t = .twt && r.marks.contains .notTwt)

/-- Whether the mode allows RWD writes. -/
def Core.rwdAllowed (c : Core) : Bool := c.mode = mDepot || c.mode = mShunt

/-- Entries a STANDBY chip accepts (R261). -/
def standbyTakes (r : Row) (i sub : Nat) : Bool :=
  r.marks.contains .twinLocal || (i = 0x5040 && sub = 1) || i = 0x7000

/-- Steps 1 to 5 of R309, common to reads and writes. -/
def Core.requestCheck (c : Core) (o : Origin) (i sub : Nat) : Nat :=
  if 2 ^ 14 ≤ o.tag.toNat then 0x0601
  else if o.deadline.toNat ≠ 0 && !c.timeUncommon && o.deadline.toNat < c.clock then 0x0603
  else
    let r := c.roleCheck o
    if r ≠ 0 then r
    else if !indexExists i || !c.servedHere i then 0x0101
    else if (rowOf i sub).isNone then 0x0102
    else 0

/-- A subindex of an entry whose codes or range no single row states: endpoint codes (R76), inputs and destinations of
slots (R216, R218), and the bounds that other entries or the converter set. -/
def Core.customRange (c : Core) (i sub v : Nat) : Bool :=
  let k := canon i
  match k.1, sub with
  | 0x1210, 1 | 0x1211, 1 => v = 0 || (2000000 ≤ v && v ≤ 20000000)
  | 0x2000, 2 => sourceOk v
  | 0x2000, 3 => secondOk v
  | 0x2000, 4 | 0x2000, 5 | 0x2000, 6 | 0x2000, 7 => sinkOk v
  | 0x2018, 3 => v = 0 || (epListed v && epKind v = 4)
  | 0x2019, 2 => v = 0 || (12 ≤ v && v ≤ 30)
  | 0x2021, 1 | 0x2022, 1 => v = 0 || 16 ≤ k.2
  | 0x3110, 1 | 0x3110, 2 => v < 8 || v = 0xFF
  | 0x3140, 2 | 0x3140, 3 => v < 48 || v = 0xFF
  | 0x3201, 4 => v ≤ (if c.ent 0x3201 2 = 2 then 503 else 1007) || v = 0xFFFF
  | 0x3210, 1 => v = 0 || (245760 ≤ v && 9830400 % v = 0)
  | 0x3220, 2 => v < 32
  | 0x3240, 1 => v < 8 || v = 0xFF
  | 0x3240, 2 => v < 8 || v = 0x80 || v = 0x81 || v = 0xFF
  | 0x3250, 1 | 0x3250, 2 => v < 8 || v = 0xFF
  | 0x4000, 4 | 0x4000, 5 => inputOk v
  | 0x4002, 7 => c.ent (i) 6 < v
  | 0x4381, 0 => 32 ≤ v
  | 0x6300, 2 => !(v = 2 && k.2 = 3)
  | 0x6010, 1 => 6000 ≤ sInt 16 v && sInt 16 v ≤ c.cdb 0x6010 2 - 100
  | 0x6220, 3 => v < 4096 && (v + 4096 - c.ent 0x6220 3) % 4096 ≤ c.ent 0x6220 4
  | 0x5232, 0 => v < 4096
  | _, _ => true

/-- A written value without its reserved bits, which read 0 (R6). -/
def cleanValue (i sub v : Nat) : Nat :=
  match (canon i).1, sub with
  | 0x122D, 0 => v % 4
  | 0x3211, 0 | 0x5120, 0 | 0x5124, 0 | 0x6214, 0 => v
  | 0x3211, _ => v % 2 ^ 44 + bits v 51 48 * 2 ^ 48
  | 0x5120, _ | 0x5124, _ => bits v 2 0 + bits v 13 8 * 256
  | 0x6214, _ => v % 256 + bits v 9 9 * 512
  | _, _ => v

/-- Steps 6 to 10 of R309 for a write of `v`. -/
def Core.valueCheck (c : Core) (o : Origin) (i sub : Nat) (v : List Byte) : Nat :=
  match rowOf i sub with
  | none => 0x0102
  | some r =>
    if !carries o.transport r (maxWrite o.transport) then 0x0103
    else if isJoinEntry i then 0x0701
    else if r.acc = .ro then 0x0201
    else if r.acc = .rwd && !c.rwdAllowed then 0x0202
    else if c.ent 0x5001 0 = 2 && !standbyTakes r i sub then 0x0501
    else if v.length ≠ r.ty.width then 0x0104
    else if !r.ty.valid (ofLe v) then 0x0302
    else if !r.inRange (ofLe v) || !c.customRange i sub (ofLe v) then 0x0301
    else 0

/-- Steps 1 to 10 of R309 for a write. -/
def Core.writeCheck (c : Core) (o : Origin) (i sub : Nat) (v : List Byte) : Nat :=
  if v.isEmpty || maxWrite o.transport < v.length then 0x0601
  else
    let r := c.requestCheck o i sub
    if r ≠ 0 then r else c.valueCheck o i sub v

/-- A response (R306). -/
def Core.response (c : Core) (o : Origin) (opcode i sub code flags : Nat) (value : List Byte) : List Byte :=
  d8 (opcode + 0x80) ++ d8 flags ++ d16 o.tag.toNat ++ d32 (if c.ent 0x5002 0 = 0 then 0 else c.ent 0x5003 0) ++
    d16 code ++ d16 i ++ d8 sub ++ d8 0 ++ d16 value.length ++ value

/-- The bytes the HSPI response queue holds (R320). -/
def Link.queued (l : Link) : Nat := (l.responses.map List.length).sum

/-- Room in the HSPI response queue for `n` bytes of response and its wrapper. -/
def State.room (s : State) (n : Nat) : Bool := s.link.queued + 8 + n ≤ 65536

/-- A response wrapper (R319). -/
def wrapResponse (source : Nat) (body : List Byte) : List Byte := d16 source ++ d32 0 ++ d16 body.length ++ body

/-- Queues a response for the host, with IRQ cause 2. -/
def State.queueResponse (s : State) (source : Nat) (body : List Byte) : State :=
  { s with link := { s.link with responses := s.link.responses ++ [wrapResponse source body] }, core := s.core.irq 2 }

/-- Sends a response back by the transport of its request; a broadcast has none (R306, R313). -/
def State.reply (s : State) (o : Origin) (body : List Byte) : State :=
  if o.broadcast then s
  else match o.transport with
    | .hspi => s.queueResponse s.core.address body
    | .twt => { s with link := { s.link with mailState := 2, mailLength := body.length, mail := padTo 248 body } }
    | .line =>
      let from_ := if o.toPair then s.core.pairAddress else s.core.address
      s.onCore (fun c => (c.originate o.source.toNat from_ 0 body).1)

/-- Marks that the owner of the pending set has sent a request (R315). -/
def Core.touchOwner (c : Core) (o : Origin) : Core :=
  if !c.pend.isEmpty && c.ent 0x1104 4 = originator o then { c with ownerSeen := c.now } else c

/-- Counts a request served (0x1133.01) and, where refused, 0x1133.02 and for a role epoch 0x1133.05. -/
def Core.countServed (c : Core) (code : Nat) : Core :=
  let c1 := c.wrapAdd 32 0x1133 1 1
  let c2 := if code = 0 then c1 else c1.count 0x1133 2 1
  if code = 0x0502 then c2.count 0x1133 5 1 else c2

/-- The end of a served request: counts and response. A part whose reset has begun answers nothing (R36). -/
def State.finish (s : State) (o : Origin) (opcode i sub code flags : Nat) (value : List Byte) : State :=
  if s.core.phase ≠ .ready then s
  else
    let s1 := s.onCore (fun c => c.countServed code)
    s1.reply o (s1.core.response o opcode i sub code flags value)

/-- The width of the entry a request reads: the room its response needs (R320). -/
def readWidth (req : List Byte) : Nat :=
  if field req 0 1 = 1 then (rowOf (field req 16 2) (field req 18 1)).map (fun r => r.ty.width) |>.getD 0 else 0

/-- Whether the request in the HSPI buffer is ready for the engine: it is local, and there is room for its response (R15,
R320). -/
def State.hspiReady (s : State) : Bool :=
  match s.link.hspi with
  | some b => s.core.hspiLocal b && s.room (16 + readWidth (hspiBody b))
  | none => false

/-- Whether a request that stands before one of this transport is ready: in an earlier transport's buffer, in the order HSPI,
Line, TWT, or in its own (R15). -/
def State.earlier (s : State) (t : Transport) : Bool :=
  match t with
  | .hspi => s.link.hspi.isSome
  | .line => s.hspiReady || !s.link.lineQueue.isEmpty
  | .twt => s.hspiReady || !s.link.lineQueue.isEmpty || s.link.mailState = 1

/-- A management clock edge that the engine has not used (R15). -/
def State.edgeFree (s : State) : Bool := s.core.clock % 4 = 0 && s.link.servedAt ≠ some s.core.now

/-- Whether the dictionary engine can take a request of this transport at this moment: transports answer from DEPOT
ready (R39), on a management clock edge and one request at most on each, no read holds the engine and no earlier request is
ready (R15), and a local HSPI request waits for room for its response (R320). -/
def State.canServe (s : State) (o : Origin) (bytes : Nat) : Bool :=
  s.core.phase = .ready && s.link.held.isNone && s.edgeFree && !s.earlier o.transport &&
    (o.transport ≠ .hspi || s.room (16 + bytes))

/-- The engine takes a request on this edge. -/
def State.taken (s : State) (o : Origin) : State :=
  { s with core := s.core.touchOwner o, link := { s.link with servedAt := some s.core.now } }

/-- Serves one write that the engine has taken (R309): checks, action, response. -/
def State.serveTaken (s : State) (o : Origin) (i sub : Nat) (v : List Byte) (act : Act) : State :=
  let code := s.core.writeCheck o i sub v
  if code ≠ 0 then s.finish o 2 i sub code 0 []
  else
    let r := act s
    r.2.2.finish o 2 i sub r.1 r.2.1 []

/-- A write request that the engine can take is served; one that it cannot take yet leaves everything as it is. -/
def State.serveWrite (s : State) (o : Origin) (i sub : Nat) (v : List Byte) (act : Act) : State :=
  if !s.canServe o 0 then s else (s.taken o).serveTaken o i sub v act

/-- The change record of an accepted write to an RWD entry (R336). -/
def Core.changeRecord (c : Core) (o : Origin) (i sub : Nat) : Core :=
  c.emit 40 0x0C02 (d16 i ++ d8 sub ++ d8 0 ++ d32 (originator o) ++ d16 o.tag.toNat)

/-- Queues a record for the twin link (R257, R259) while the link is up; swap control and health need no more, and every other
type a pair that is PROTECTED or JOINING. -/
def Core.twinSend (c : Core) (kind : Nat) (data : List Byte) : Core :=
  if c.entBit 0x5000 0 3 && (kind = 0x0B || kind = 0x0E || c.ent 0x5002 0 = 1 || c.ent 0x5002 0 = 2) then
    { c with twin := { c.twin with
      outbox := c.twin.outbox ++ [⟨kind, c.twin.recSeq, data, 0⟩], recSeq := (c.twin.recSeq + 1) % 2 ^ 16 } }
  else c

/-- A LIVE write accepted by the ACTIVE chip of a pair that is PROTECTED or JOINING completes on both chips at the effect tick:
the first multiple of 256 ticks at least 1,024 ticks after acceptance (R260). -/
def Core.shared (c : Core) : Bool := c.ent 0x5001 0 = 1 && (c.ent 0x5002 0 = 1 || c.ent 0x5002 0 = 2)
def Core.defer (c : Core) (i sub v : Nat) : Core :=
  let tick := ceilMul 256 (c.clock + 1024)
  let width := (rowOf i sub).map (fun r => r.ty.width) |>.getD 8
  { (c.twinSend 0x07 (d32 (entKey i sub) ++ leBytes 8 tick ++ leBytes width v)) with
    later := c.later ++ [(tick, entKey i sub, v)] }
def liveAct (i sub v : Nat) (f : Core → Core) : Act := coreAct (fun c => (0, if c.shared then c.defer i sub v else f c))

/-- The effect of an event on the core where the event is due; otherwise nothing happens. -/
def State.event (s : State) (due : Core → Bool) (f : Core → Core) : Out :=
  .next (if due s.core then s.onCore f else s)

/-- An event that can occur whenever the part is out of reset. -/
def Core.awake (c : Core) : Bool := c.phase ≠ .held && c.phase ≠ .released

end Sys2Proof.Machine
end

