-- ==== Sys2Proof/Machine/Book.lean ====
section
/-! DEFINITION. The Occurrence Book and the NV write engine (R23 to R25, R399 to R413): severities, records in bytes, the
collector, the choice of the next unit, freezing, and what the book's entries read. -/

namespace Sys2Proof.Machine

/-- The codes of R411 that are alarms whatever their data, and those that are warnings. -/
def alarmCodes : List Nat :=
  [0x0201, 0x0210, 0x0401, 0x0701, 0x0703, 0x0706, 0x0709, 0x070C, 0x070D, 0x0904, 0x0A05, 0x0A07, 0x0A09, 0x0D01,
   0x0D04, 0x0F01, 0x1201]
def warningCodes : List Nat :=
  [0x0105, 0x0203, 0x0207, 0x0208, 0x0209, 0x0211, 0x0212, 0x0213, 0x0301, 0x0304, 0x0404, 0x0405, 0x0601, 0x0602,
   0x0603, 0x0607, 0x0609, 0x0705, 0x0707, 0x0708, 0x070A, 0x070B, 0x0710, 0x0802, 0x0804, 0x0807, 0x0809, 0x0901,
   0x0902, 0x0903, 0x0906, 0x0907, 0x0A03, 0x0A08, 0x0A0B] ++
  [0x0B02, 0x0B05, 0x0B07, 0x0B08, 0x0B09, 0x0C11, 0x0C13, 0x0C14, 0x0D03, 0x0E03, 0x0E04, 0x0E05, 0x0F07, 0x1001,
   0x1002, 0x1003, 0x1004, 0x1101, 0x1103, 0x1104, 0x1105, 0x1108]

/-- The severity of a code, and the field it depends on where it depends on one (R411, R463). -/
def severity (code : Nat) (data : List Byte) : Nat :=
  let b := fun k => (data.getD k 0).toNat
  if alarmCodes.contains code then 3
  else if warningCodes.contains code then 2
  else match code with
    | 0x0801 => if b 2 = 5 then 3 else 1
    | 0x0A02 => if b 6 = 1 then 3 else 1
    | 0x0A0A => if b 0 = 2 then 3 else 1
    | 0x0E01 => if b 1 = 3 then 3 else if b 1 = 2 then 2 else 1
    | 0x0F04 => if b 0 = 0 then 2 else 1
    | 0x0F06 => if b 0 = 0 then 3 else 1
    | _ => 1

/-- The 32 bytes of a record (R399). -/
def Record.bytes (r : Record) : List Byte :=
  let h := leBytes 8 r.stamp ++ d8 r.source ++ d16 r.address ++ d8 r.flags ++ d16 r.code ++ d16 r.seq ++ padTo 12 r.data
  h ++ d16 (crc16 h) ++ d16 0x5AC3

/-- Whether a slot's 32 bytes carry the valid mark, and whether they hold a record (R400). -/
def marked (raw : Nat) : Bool := raw / 2 ^ 240 = 0x5AC3
def holdsRecord (raw : Nat) : Bool := marked raw && crc16 (leBytes 28 raw) = raw / 2 ^ 224 % 2 ^ 16

/-- The sequence in a slot's bytes. -/
def seqOf (raw : Nat) : Nat := raw / 2 ^ 112 % 2 ^ 16

/-- The queue's capacity, and the slot of a sequence (R403). -/
def queueMax : Nat := 512
def slotOf (seq : Nat) : Nat := seq % 32768

/-- The record of a sequence as the book returns it: 0 where its slot does not hold it (R408). -/
def Nv.recordAt (n : Nv) (seq : Nat) : Nat :=
  let raw := n.records.get (fun _ => 0) (slotOf seq)
  if holdsRecord raw && seqOf raw = seq % 65536 then raw else 0

/-- Whether sequence `a` is newer than `b` (sequences wrap). -/
def newer (a b : Nat) : Bool :=
  let d := (a + 65536 - b % 65536) % 65536
  0 < d && d < 32768

/-- A record is lost (R404, R405): counted, with the first and last lost timestamps. -/
def State.lose (s : State) (e : Event) : State :=
  let b := s.book
  let s1 := { s with book := { b with
    losses := b.losses + 1, firstLost := if b.losses = 0 then e.stamp else b.firstLost, lastLost := e.stamp } }
  s1.onCore (fun c => (c.count 0x6405 0 1).setEntBit 0x6400 0 2 true)

/-- The latch's persistent-state unit (R25, R175): the record's sequence, its code and time. -/
def Core.latchUnit (c : Core) (seq : Nat) : Core :=
  let c1 := c.setEnt 0x1103 1 seq
  c1.persistUnit [(0, 1), (entKey 0x1103 1, seq), (entKey 0x1103 2, c1.ent 0x1103 2), (entKey 0x1103 3, c1.ent 0x1103 3)]

/-- Stages one event (R401): the next sequence, the address in use, severity and flags; or it is lost. -/
def State.stage (s : State) (e : Event) : State :=
  let b := s.book
  if b.closed || queueMax ≤ b.queue.length then
    let s1 := s.lose e
    if e.latching then s1.onCore (fun c => let r := c.draw; r.2.latchUnit (r.1 % 65536)) else s1
  else
    let r : Record := ⟨e.stamp, e.source, s.core.address, severity e.code e.data + (if e.uncommon then 8 else 0), e.code,
      b.next, e.data⟩
    let s1 := { s with book := { b with queue := b.queue ++ [r], next := (b.next + 1) % 65536 } }
    if e.latching then s1.onCore (fun c => c.latchUnit r.seq) else s1

/-- Stable insertion of an event by local source (R401). -/
def insertEvent (e : Event) : List Event → List Event
  | [] => [e]
  | f :: r => if f.source ≤ e.source then f :: insertEvent e r else e :: f :: r
def sortEvents (l : List Event) : List Event := l.foldl (fun acc e => insertEvent e acc) []

/-- The LOST record due on this tick (R405). -/
def State.lostDue (s : State) : Option Event :=
  if s.book.losses ≠ 0 && s.book.queue.length ≤ 448 && !s.book.closed then
    some ⟨50, 0x1201, padTo 12 (d32 s.book.losses ++ d32 s.book.firstLost ++ d32 s.book.lastLost), s.core.clock,
      s.core.timeUncommon, false⟩
  else none

/-- Stages a LOST record; its count starts again unless it is itself lost. -/
def State.stageLost (s : State) (e : Event) : State :=
  if s.book.queue.length < queueMax then
    let s1 := { s with book := { s.book with losses := 0 } }
    (s1.onCore (fun c => (c.setEntBit 0x6400 0 2 false).countPromise 7)).stage e
  else s.stage e

/-- The collector's work of one tick (R401): the records presented, by local source, and a LOST record after them. Records
presented before the book opens are held. -/
def State.collect (s : State) : State :=
  if !s.book.opened then s
  else
    let lost := s.lostDue
    let l := sortEvents s.core.presented
    let s1 := l.foldl State.stage { s with core := { s.core with presented := [] } }
    match lost with
    | some e => s1.stageLost e
    | none => s1

/-- A region of the MRAM (R23): its name, first address, size in bytes, and what writes it. -/
structure Region where
  name : String
  base : Nat
  size : Nat
  writer : String
deriving DecidableEq, Repr

/-- The regions of R23, in the order of its table. -/
def mramRegions : List Region :=
  [⟨"image slot A", 0x000000, 0x100000, "image write commands"⟩,
   ⟨"image slot B", 0x100000, 0x100000, "image write commands"⟩,
   ⟨"Occurrence Book", 0x200000, 0x100000, "Occurrence Book"⟩,
   ⟨"hold-up save area", 0x300000, 0x040000, "supply monitor"⟩,
   ⟨"persistent state", 0x340000, 0x040000, "Guard, modes, canceller, twin, identity"⟩,
   ⟨"factory calibration", 0x380000, 0x040000, "production test only"⟩,
   ⟨"field calibration", 0x3C0000, 0x040000, "foreground calibration"⟩]

/-- The region a unit writes, and its length in bytes (R23, R24): a record of 32 bytes, a persistent-state entry of up to 64,
a page of 256. No unit writes the factory calibration. -/
def Unit_.region : Unit_ → Nat × Nat
  | .book _ | .restored _ => (2, 32)
  | .persist _ => (4, 64)
  | .save _ | .supersede _ => (3, 256)
  | .image slot _ _ | .erase slot => (slot - 1, 256)
  | .calibration _ _ _ => (6, 256)

/-- The first MRAM address of a unit whose place the manual fixes (R23, R358, R403). -/
def Unit_.address (saveSlot : Nat) : Unit_ → Option Nat
  | .book r => some (0x200000 + 32 * slotOf r.seq)
  | .restored b => some (0x200000 + 32 * slotOf (field b 14 2))
  | .save k => some (0x300000 + 20736 * saveSlot + 256 * k)
  | .supersede j => some (0x300000 + 20736 * j)
  | .image slot page _ => some (0x100000 * (slot - 1) + 256 * page)
  | .persist _ | .erase _ | .calibration _ _ _ => none

/-- The unit the NV write engine takes next (R25): hold-up save, persistent state, book, image and calibration pages. With
the SHUTDOWN flag set none starts (R348); while the part is held in reset only persistent state is written (R36). -/
def State.nextUnit (s : State) : Option Unit_ :=
  let c := s.core
  if c.thermalDown then none
  else
    let save := match s.nv.superseding, c.supply.save with
      | some j, _ => some (Unit_.supersede j)
      | none, some v => if v.next ≤ 80 then some (Unit_.save v.next) else none
      | none, none => none
    match save with
    | some u => some u
    | none =>
      match c.persist with
      | k :: _ => some (.persist k)
      | [] =>
        if c.phase = .held then none
        else
          let book := if s.book.frozen.isSome then none
            else match s.book.restored, s.book.queue with
              | b :: _, _ => some (Unit_.restored b)
              | [], r :: _ => some (.book r)
              | [], [] => none
          match book with
          | some u => some u
          | none =>
            let page := match s.nv.erasing, s.nv.job with
              | k :: _, _ => some (Unit_.erase k)
              | [], some j => if 256 * j.page < j.bytes.length
                  then some (.image j.slot j.page ((j.bytes.drop (256 * j.page)).take 256)) else none
              | [], none => none
            match page, c.cal with
            | some u, _ => some u
            | none, (p, n, w) :: _ => some (.calibration p (n ≤ 1) w)
            | none, [] => none

/-- Starts the next unit where the engine is idle. -/
def State.kick (s : State) : State :=
  if s.nv.unit.isSome then s else { s with nv := { s.nv with unit := s.nextUnit } }

/-- The keys of the roster's entries in persistent-state units. -/
def rosterKey (n : Nat) : Nat := 0x1000000 + n

/-- Writes a persistent-state unit. -/
def Nv.writePersist (n : Nv) (keys : List (Nat × Nat)) : Nv :=
  keys.foldl (fun n kv =>
    if rosterKey 0 ≤ kv.1 then { n with roster := n.roster.put (fun _ => 0) (kv.1 - rosterKey 0) kv.2 }
    else { n with persistent := n.persistent.put (fun _ => 0) kv.1 kv.2 }) n

/-- Writes 32 bytes to the slot of their sequence, the newest sequence with them (R403). -/
def Nv.writeRecord (n : Nv) (raw : Nat) : Nv :=
  { n with
    records := n.records.put (fun _ => 0) (slotOf (seqOf raw)) raw
    newest := match n.newest with
      | none => some (seqOf raw)
      | some m => if newer (seqOf raw) m then some (seqOf raw) else some m }

/-- An image slot's bytes as stored, and their replacement. -/
def Nv.slot (n : Nv) (slot : Nat) : List Byte := if slot = 1 then n.slotA else n.slotB
def Nv.setSlot (n : Nv) (slot : Nat) (b : List Byte) : Nv := if slot = 1 then { n with slotA := b } else { n with slotB := b }

/-- An image page reaches its slot (R42); a save in progress goes on to its next page. -/
def Nv.writePage (n : Nv) (slot page : Nat) (b : List Byte) : Nv :=
  { n.setSlot slot (padTo (256 * page) (n.slot slot) ++ b) with job := n.job.map (fun j => { j with page := page + 1 }) }

/-- A page with its CRC-32 in its last 4 bytes, and whether a stored page is good (R358). -/
def sealPage (body : List Byte) : Nat := let b := padTo 252 body; ofLe (b ++ d32 (crc32 b))
def pageGood (raw : Nat) : Bool := raw ≠ 0 && crc32 (leBytes 252 raw) = raw / 2 ^ 2016 % 2 ^ 32
def saveKey (slot page : Nat) : Nat := slot * 81 + page

/-- The header of a save slot with state 3 (R360, R361). -/
def Nv.supersede (n : Nv) (slot : Nat) : Nv :=
  let key := saveKey slot 0
  let old := n.saves.get (fun _ => 0) key
  if pageGood old then { n with saves := n.saves.put (fun _ => 0) key (sealPage ((leBytes 18 old) ++ d8 3)) } else n

/-- What a completed unit leaves in the MRAM (R24, R25): the one operation that writes it. A page of a save takes its contents
when it is written (`State.writeSavePage`). A sweep's result counts as stored with its last page. -/
def Nv.perform (n : Nv) : Unit_ → Nv
  | .book r => n.writeRecord (ofLe r.bytes)
  | .restored b => n.writeRecord (ofLe b)
  | .persist k => n.writePersist k
  | .image slot page b => n.writePage slot page b
  | .erase slot => { n.setSlot slot [] with erasing := n.erasing.tail }
  | .supersede slot => { n.supersede slot with superseding := none }
  | .calibration p last w => if last then { n with sweeps := n.sweeps.put (fun _ => none) p w } else n
  | .save _ => n

/-- Begins or restarts a freeze, with its cause (R409). -/
def State.freeze (s : State) (cause : Nat) : State :=
  let s1 := { s with book := { s.book with frozen := some (s.core.now + 10 * second) } }
  if s.book.frozen.isSome then s1
  else s1.onCore (fun c => ((c.setEnt 0x6410 0 1).setEntBit 0x6400 0 0 true).emit 50 0x1203 (d8 1 ++ d8 cause))

/-- Releases a freeze, with its cause: the queue goes on. -/
def State.unfreeze (s : State) (cause : Nat) : State :=
  if s.book.frozen.isNone then s
  else ({ s with book := { s.book with frozen := none } }.onCore
    (fun c => ((c.setEnt 0x6410 0 0).setEntBit 0x6400 0 0 false).emit 50 0x1203 (d8 0 ++ d8 cause))).kick

/-- A write to 0x6410. -/
def freezeAct (v : Nat) : Act := fun s =>
  if v = 1 then (0, 0, s.freeze 1) else if v = 0 then (0, 0, s.unfreeze 1) else (0x0301, 0, s)

def execBookFreeze (o : Origin) (s : State) : Out := .next (s.serveWrite o 0x6410 0 (d8 1) (freezeAct 1))
def execBookRelease (o : Origin) (s : State) : Out := .next (s.serveWrite o 0x6410 0 (d8 0) (freezeAct 0))
def execBookFreezeExpiry (s : State) : Out := .next (if s.core.reached s.book.frozen then s.unfreeze 3 else s)

/-- The number of records in the region, and the oldest of them (R413). -/
def Nv.sequences (n : Nv) : List Nat := (n.records.filter (fun e => holdsRecord e.2)).map (fun e => seqOf e.2)
def Nv.present (n : Nv) : Nat := n.sequences.length
def Nv.newestSeq (n : Nv) : Nat := n.newest.getD (Config.emptySequence 0 % 65536)
def Nv.oldestSeq (n : Nv) : Nat :=
  match n.sequences with
  | [] => Config.emptySequence 1 % 65536
  | a :: r => r.foldl (fun m x => if newer m x then x else m) a

/-- Whether a unit writes a slot that a read of `n` sequences from the cursor covers: the read waits (R408). -/
def State.readWaits (s : State) (n : Nat) : Bool :=
  let seqs := (List.range n).map (fun k => slotOf (s.core.ent 0x6420 0 + k))
  match s.nv.unit with
  | some (.book r) => seqs.contains (slotOf r.seq)
  | some (.restored b) => seqs.contains (slotOf (field b 14 2))
  | _ => false

/-- What the book's entries read, where they are not held in the dictionary. -/
def State.bookRead (s : State) (i sub : Nat) : Option Nat :=
  match i, sub with
  | 0x6401, 0 => some s.nv.newestSeq
  | 0x6402, 0 => some s.nv.oldestSeq
  | 0x6403, 0 => some s.nv.present
  | 0x6404, 0 => some s.book.queue.length
  | 0x6408, 0 => some s.book.next
  | 0x6411, 0 => some (match s.book.frozen with | some t => (t - s.core.now) / ms | none => 0)
  | 0x6421, 0 => some (s.nv.recordAt (s.core.ent 0x6420 0))
  | 0x6422, 0 => some (ofLe ((List.range 16).flatMap (fun k => leBytes 32 (s.nv.recordAt (s.core.ent 0x6420 0 + k)))))
  | _, _ => none

/-- The persistent-state step's scan (R406): the corrupt slots, and the restored records of a save that MRAM does not
hold. -/
def Nv.corrupt (n : Nv) : Nat := (n.records.filter (fun e => marked e.2 && !holdsRecord e.2)).length
def Nv.missing (n : Nv) (restored : List (List Byte)) : List (List Byte) :=
  restored.filter (fun b => n.recordAt (field b 14 2) = 0)

/-- Opens the book (R406, R407): next sequence, corrupt slots, record 0x1202, and a LOST record where losses are counted
and not 0. `restored` are the records of a save restored on this start. -/
def State.openBook (s : State) (cause : Nat) (saveRestored : Bool) (restored : List (List Byte)) : State :=
  let n := s.nv
  let bad := n.corrupt
  let list := n.missing restored
  let previous := n.newestSeq
  let counted := s.book.retained
  let missed := match n.newest with
    | some m => (s.book.next + 65535 - m) % 65536
    | none => (s.book.next + 65536 - Config.emptySequence 2 % 65536) % 65536
  let count := if cause = 2 then s.book.losses else missed + s.book.losses
  let after := fun (a : Option Nat) (x : Nat) => match a with
    | none => some x
    | some m => if newer x m then some x else some m
  let largest := (restored.map (fun b => field b 14 2)).foldl after n.newest
  let largest := if s.book.retained then after largest ((s.book.next + 65535) % 65536) else largest
  let next := match largest with | some m => (m + 1) % 65536 | none => Config.emptySequence 2 % 65536
  let flags := (if counted then 0 else 1) + (if saveRestored then 2 else 0) + (if bad = 0 then 0 else 4) +
    (if s.book.releasedByReset then 8 else 0)
  let e : Event := ⟨50, 0x1202, padTo 12 (d8 cause ++ d8 flags ++ d16 previous ++ d16 list.length ++ d16 bad), 0, true, false⟩
  let s1 := { s with book := { Book.init with opened := true, next := next, restored := list } }
  let s2 := (s1.onCore (fun c => (c.count 0x6407 0 bad).setEnt 0x6400 0 (if counted then 0 else 8))).stage e
  if counted && count ≠ 0 then
    (s2.onCore (fun c => c.countPromise 7)).stage ⟨50, 0x1201, padTo 12 (d32 count ++ d32 0xFFFFFFFF ++ d32 0xFFFFFFFF), 0, true, false⟩
  else s2

end Sys2Proof.Machine
end

