-- ==== Sys2Proof/Machine/Filters.lean ====
section
/-! DEFINITION. The arithmetic of a path (R75, R81, R92 to R113, R253): oscillators, mixers, CIC filters, second-order
sections, phase delay, gain and ramp weights, on exact integers narrowed where the manual narrows them. -/

namespace Sys2Proof.Machine

/-- A quotient whose rounding the manual does not state: one of its two integer neighbours. -/
def openRound (num : Int) (den : Nat) : Int :=
  if num % (den : Int) = 0 then num / (den : Int) else num / (den : Int) + ((Config.roundUp num den % 2 : Nat) : Int)

def withinI (x bound : Int) : Bool := decide (-bound ≤ x) && decide (x ≤ bound)

/-- 2π in 2^-64. -/
def twoPi64 : Int := 115904311329233965478

/-- The series of the cosine in 2^-64, term by term: `t2` is the square of the angle, `term` the term of index `k`, `n` the
terms left. -/
def cosSeries (t2 : Int) : Nat → Nat → Int → Int
  | 0, _, _ => 0
  | n + 1, k, term => term + cosSeries t2 n (k + 2) (-(term * t2 / 2 ^ 64) / (((k + 1) * (k + 2) : Nat) : Int))

/-- The cosine of `a` 2^-20 turns, in 2^-64, far finer than any rounding of it to 18 bits. -/
def cos64 (a : Nat) : Int :=
  let d : Nat := a % 2 ^ 20
  -- the angle folded into the first half turn
  let b : Nat := if d ≤ 2 ^ 19 then d else 2 ^ 20 - d
  let t : Int := twoPi64 * (b : Int) / 2 ^ 20
  cosSeries (t * t / 2 ^ 64) 24 0 (2 ^ 64)

/-- The NCO's amplitude (R75, R92): 18 bits, and no greater than 131,069, beyond which the mixer could overflow. -/
def ncoAmplitude : Nat := clampN 131064 131069 Config.ncoAmplitude

/-- 18-bit cosine and sine of a 48-bit phase, from its upper 20 bits (R75): the nearest integer, so that each word is wrong by
at most half a unit of 131,064 or more, −108.3 dB. -/
def ncoCos (a : Nat) : Int := roundShift ((ncoAmplitude : Int) * cos64 a) 64
def cosOf (phase : Nat) : Int := ncoCos (phase % 2 ^ 48 / 2 ^ 28)
def sinOf (phase : Nat) : Int := ncoCos (phase % 2 ^ 48 / 2 ^ 28 + 3 * 2 ^ 18)

/-- The receive mixer: a 12-bit sample times the exponential at -f_c (R92), ties rounded up. It cannot overflow S16, since
`ncoAmplitude` is at most 131,069. -/
def mixDown (x : Int) (phase : Nat) : Int × Int :=
  (roundShift (x * cosOf phase) 13, roundShift (x * -(sinOf phase)) 13)

/-- One pass of an input through a chain of integrators of `w` bits, each adding its updated predecessor. -/
def integrate (w : Nat) : List Int → Int → List Int
  | [], _ => []
  | a :: r, x => let y := wrapS w (a + x); y :: integrate w r y

/-- One pass of an input through a chain of combs of `w` bits: the new registers and the output. -/
def combs (w : Nat) : List Int → Int → List Int × Int
  | [], x => ([], x)
  | a :: r, x => let o := combs w r (wrapS w (x - a)); (x :: o.1, o.2)

def lastOr (d : Int) : List Int → Int
  | [] => d
  | [x] => x
  | _ :: r => lastOr d r

/-- One converter sample into the decimator's integrators (R93). -/
def Cic.push (s : Cic) (x : Int × Int) : Cic :=
  { s with intI := integrate 56 s.intI x.1, intQ := integrate 56 s.intQ x.2 }

/-- The decimator's output at a decimation instant: combs, scaling and saturation (R93). The Bool says that an
output saturated. -/
def Cic.output (s : Cic) (rate : Nat) : Cic × Int × Int × Bool :=
  let k := 5 * (9 - clampN 1 4 rate) - 9
  let ci := combs 56 s.combI (lastOr 0 s.intI)
  let cq := combs 56 s.combQ (lastOr 0 s.intQ)
  let i := roundShift ci.2 k
  let q := roundShift cq.2 k
  ({ s with combI := ci.1, combQ := cq.1 }, satS 24 i, satS 24 q, overS 24 i || overS 24 q)

/-- The coefficients of a section as b0, b1, b2, a1, a2 and shift k (R96), held to their widths. -/
structure Coefs where
  b0 : Int
  b1 : Int
  b2 : Int
  a1 : Int
  a2 : Int
  k : Nat
deriving DecidableEq, Repr

def Coefs.of (t : Int × Int × Int × Int × Int × Nat) : Coefs :=
  ⟨satS 20 t.1, satS 20 t.2.1, satS 20 t.2.2.1, satS 20 t.2.2.2.1, satS 20 t.2.2.2.2.1, t.2.2.2.2.2 % 4⟩

/-- One rail of a section: the output, the new registers and the saturations (R96). -/
def sectionRail (f : Coefs) (s1 s2 x : Int) : Int × Int × Int × Nat :=
  let al := fun v => roundShift v (5 - f.k)
  let yr := roundShift (al (f.b0 * x) + s1) 14
  let y := satS 24 yr
  let n1 := al (f.b1 * x) - al (f.a1 * y) + s2
  let n2 := al (f.b2 * x) - al (f.a2 * y)
  (y, satS 40 n1, satS 40 n2, ([overS 24 yr, overS 40 n1, overS 40 n2].filter id).length)

/-- A section on I and Q: output, new state, saturations. -/
def Sect.run (f : Coefs) (s : Sect) (x : Int × Int) : (Int × Int) × Sect × Nat :=
  let i := sectionRail f s.s1i s.s2i x.1
  let q := sectionRail f s.s1q s.s2q x.2
  ((i.1, q.1), ⟨i.2.1, i.2.2.1, q.2.1, q.2.2.1⟩, i.2.2.2 + q.2.2.2)

def Sect.zero : Sect := ⟨0, 0, 0, 0⟩

/-- A cascade of sections; missing state reads as clear. -/
def cascade : List Coefs → List Sect → Int × Int → (Int × Int) × List Sect × Nat
  | [], _, x => (x, [], 0)
  | f :: fs, ss, x =>
    let o := (ss.headD Sect.zero).run f x
    let r := cascade fs ss.tail o.1
    (r.1, o.2.1 :: r.2.1, o.2.2 + r.2.2)

/-- The sections a path runs: the droop equaliser on an off-air path (R95), then the entry's sections. -/
def droop (rate : Nat) : Coefs := Coefs.of (Config.droopSection rate)
def romCoefs (id : Nat) : List Coefs := (List.range (romNSec id)).map (fun k => Coefs.of (Config.romSection id k))
/-- The image filter's two sections, the same at every rate (R111). -/
def imageCoefs : List Coefs := [0, 1].map (fun k => Coefs.of (Config.imageSection k))

/-- The cubic interpolator's coefficients for fraction f, S20 with shift 1: nearest to h0 to h3 (R108). -/
def cubicCoefs (f : Nat) : List Int :=
  let d : Int := f
  let c := fun (n : Int) (m : Nat) => satS 20 (roundDiv (n * 2 ^ 18) (m * 2 ^ 24))
  [c (-((d - 256) * (d - 512) * (d - 768))) 6, c (d * (d - 512) * (d - 768)) 2,
   c (-(d * (d - 256) * (d - 768))) 2, c (d * (d - 256) * (d - 512)) 6]

/-- The phase-delay stage on a delay line, newest first (R108). -/
def phaseDelay (line : List Sample) (w f : Nat) : Int × Int :=
  let at' := fun k => ((line.drop (w + k)).head?).map (fun s => (s.i, s.q)) |>.getD (0, 0)
  if f = 0 then at' 0
  else
    let h := cubicCoefs f
    let rail := fun (g : Int × Int → Int) =>
      satS 24 (roundShift (((List.range 4).map (fun k => roundShift (h.getD k 0 * g (at' k)) 4)).foldl (· + ·) 0) 14)
    (rail Prod.fst, rail Prod.snd)

/-- The least n below 2^31 with n^4000 × 10^-(e) ≥ 2^96000, for bounds of 10^(g/2000) in 2^-24. -/
def gainBound (e : Int) : Nat :=
  searchUp (fun n => if 0 ≤ e then n ^ 4000 ≤ 2 ^ 96000 * 10 ^ e.toNat else n ^ 4000 * 10 ^ (-e).toNat ≤ 2 ^ 96000) 31 0

/-- The linear gain in 2^-24 of g hundredths of a dB: within ±0.005 dB (R81). -/
def gainOf (g : Int) : Nat := clampN (gainBound (2 * g - 1) + 1) (gainBound (2 * g + 1)) (Config.gainFactor g)

/-- A gain applied to one rail at the 24-bit path width, before saturation. -/
def scaleBy (f : Nat) (x : Int) : Int := roundShift (x * f) 24

/-- Whether a power sum over `n` samples is at or above the floor (R140, R142, R145). -/
def atFloor (sum n : Nat) (floor : Int) : Bool := n ^ 1000 * 2 ^ 46000 ≤ sum ^ 1000 * 10 ^ (-floor).toNat

/-- w_in[k] of the 64-sample ramp and crossfade (R253). -/
def rampWeights : List Nat := [
  10, 89, 246, 482, 796, 1187, 1654, 2196, 2811, 3499, 4257, 5084, 5977, 6935, 7956, 9036,
  10173, 11365, 12608, 13900, 15237, 16617, 18035, 19489, 20975, 22489, 24028, 25588, 27166, 28757, 30357, 31964,
  33572, 35179, 36779, 38370, 39948, 41508, 43047, 44561, 46047, 47501, 48919, 50299, 51636, 52928, 54171, 55363,
  56500, 57580, 58601, 59559, 60452, 61279, 62037, 62725, 63340, 63882, 64349, 64740, 65054, 65290, 65447, 65526]

def wIn (k : Nat) : Nat := rampWeights.getD k 65536
def wOut (k : Nat) : Nat := 65536 - wIn k

/-- x × w / 65,536, ties rounded up. -/
def weigh (w : Nat) (x : Int) : Int := roundShift (x * w) 16

/-- Zero insertion and the interpolator's integrators for the remaining converter samples (R112). -/
def interpRun (scale : Nat) : Nat → List Int → Int → List Int × List Int × Nat
  | 0, s, _ => (s, [], 0)
  | n + 1, s, x =>
    let s' := integrate 60 s x
    let o := (2 * lastOr 0 s' + scale) / (2 * scale)
    let r := interpRun scale n s' 0
    (r.1, satS 18 o :: r.2.1, r.2.2 + if overS 18 o then 1 else 0)

/-- The interpolator on one path sample: 24 × t_s converter samples of S18 with 4 fraction bits (R112), and how many of its
results saturated (R113). The gain of I^4 is undone exactly and the 24-bit path scale becomes 18 bits; ties rounded up. -/
def Cic.interpolate (s : Cic) (rate : Nat) (x : Int × Int) : Cic × List (Int × Int) × Nat :=
  let n := interpOf rate
  let scale := 2 ^ 6 * n ^ 4
  let ci := combs 60 s.combI x.1
  let cq := combs 60 s.combQ x.2
  let i := interpRun scale n s.intI ci.2
  let q := interpRun scale n s.intQ cq.2
  (⟨i.1, q.1, ci.1, cq.1⟩, i.2.1.zip q.2.1, i.2.2 + q.2.2)

/-- The real part after the up-mix at +f_c (R113), narrowed to S18 by saturation, which the manual does not state (log entry
120). -/
def mixUp (inverted : Bool) (x : Int × Int) (phase : Nat) : Int :=
  let q := if inverted then -x.2 else x.2
  satS 18 (roundShift (x.1 * cosOf phase - q * sinOf phase) 17)

/-- |x|² of a sample. -/
def power (x : Int × Int) : Nat := (x.1 * x.1 + x.2 * x.2).toNat

end Sys2Proof.Machine
end

