-- ==== Sys2Proof/Machine/Pair.lean ====
section
/-! DEFINITION. Twin operation as other parts use it: roles, the release stage's silence, withdrawal of the token, and the
comparison of a STANDBY's results with the ACTIVE's (R245 to R249, R259, R263, R264). -/

namespace Sys2Proof.Machine

def Core.twinOn (c : Core) : Bool := c.entBit 0x5000 0 0
/-- The pair is JOINING or PROTECTED: the decision stream is applied. -/
def Core.paired (c : Core) : Bool := c.ent 0x5002 0 = 1 || c.ent 0x5002 0 = 2

/-- The window in which neither chip is pre-empted is open (R249). -/
def Core.windowOpen (c : Core) : Bool := match c.twin.windowUntil with | some t => decide (c.now < t) | none => false

/-- The release stages release zero: a sag, a withdrawn token, a claim not yet opened, forcing by the partner, or no window
(R248 to R250, R356). -/
def Core.silenced (c : Core) : Bool :=
  c.supply.forced || (c.twinOn && (!c.twin.token || c.now < c.twin.openAt ||
    (c.twin.preemptIn && !c.twin.preemptOut) || (!c.twin.preemptIn && !c.twin.preemptOut && !c.windowOpen)))

/-- The switching-class outputs and REFTUNE are driven: never from the start of a reset until DEPOT ready (R37), then as a
single part or as R243 states. -/
def Core.drives (c : Core) : Bool := c.phase = .ready && (!c.twinOn || (c.twin.drivers && !(c.twin.preemptIn && !c.twin.preemptOut)))

/-- Brings the forced bit up to date (R249). -/
def Core.refreshForced (c : Core) : Core :=
  c.setEntBit 0x5000 0 6 (c.twinOn && c.twin.preemptIn && !c.twin.preemptOut)

/-- Enters a pair state (R245): record 0x0A01. The manual gives its cause no coding: an open value. -/
def Core.setPair (c : Core) (new : Nat) : Core :=
  let old := c.ent 0x5002 0
  if old = new then c
  else
    let r := c.draw
    let c1 := ((r.2.setEnt 0x5002 0 new).emit 38 0x0A01 (d8 old ++ d8 new ++ d8 r.1)).setEntBit 0x5000 0 4 (new = 2)
    let c2 := if new = 3 then (c1.setEnt 0x5040 2 0) else c1
    { c2 with
      twin := { c2.twin with
        protectedSince := if new = 2 then some c2.now else none
        conditionsSince := none
        joinFrom := if new = 1 then some c2.now else none
        slotOwn := [], slotIn := [], mismatches := [], matches_ := [] } }

/-- Leaves PROTECTED or JOINING for EXPOSED. -/
def Core.exitStep (c : Core) : Core := if c.paired then c.setPair 3 else c

/-- Enters a role (R245, R246): record 0x0A02; a chip that becomes ACTIVE counts the role epoch, which is never 0. -/
def Core.setRole (c : Core) (new kind : Nat) : Core :=
  let old := c.ent 0x5001 0
  if old = new then c
  else
    let e := c.ent 0x5003 0
    let c1 := if new = 1 then c.setEnt 0x5003 0 (if e + 1 = 2 ^ 32 then 1 else e + 1) else c
    (c1.setEnt 0x5001 0 new).emit 38 0x0A02 (d8 old ++ d8 new ++ d32 (c1.ent 0x5003 0) ++ d8 kind)

/-- A health record (R258): token state, thermal state, withdrawal cause; with the strap, node address and serial that the
partner shows (R246, R274), in the layout this model gives the record. -/
def Core.sendHealth (c : Core) : Core :=
  c.twinSend 0x0E (d8 (if c.twin.token then 1 else 0) ++ d8 (c.ent 0x6000 0) ++ d8 (c.ent 0x5008 0) ++
    d8 (if bit (c.ent 0x1107 0) 5 then 1 else 0) ++ d16 (c.ent 0x5103 1) ++ padTo 16 Config.serial)

/-- Withdraws the token (R248). -/
def Core.withdraw (c : Core) (cause : Nat) : Core :=
  if !c.twinOn then c
  else
    let c1 := { (c.setEnt 0x5008 0 cause) with twin := { c.twin with token := false } }
    c1.sendHealth.exitStep

/-- The token toggles again once the cause of its withdrawal has gone. -/
def Core.restoreToken (c : Core) (cause : Nat) : Core :=
  if c.twinOn && c.ent 0x5008 0 = cause then
    { (c.setEnt 0x5008 0 0) with twin := { c.twin with token := true } }
  else c

/-- Notes an unresolved disagreement or an abandoned join: the partner is held out past the limit in the hour (R265). -/
def Core.noteFailure (c : Core) : Core :=
  let l := c.twin.failures.filter (fun t => c.now < t + 3600 * second) ++ [c.now]
  { (c.setEnt 0x5040 4 (min 16 l.length)) with
    twin := { c.twin with failures := l, heldOut := c.twin.heldOut || c.ent 0x5030 6 < l.length } }

/-- An unresolved disagreement (R264): the ACTIVE chip orders the STANDBY's reset. -/
def Core.disagree (c : Core) (item index active standby : Nat) : Core :=
  let bytes := d8 item ++ d8 index ++ d16 0 ++ d32 active ++ d32 standby ++ d32 c.clock
  let c1 := ((c.setEnt 0x5032 0 (ofLe bytes)).count 0x5020 6 1).emit 38 0x0A05
    (d8 item ++ d16 index ++ d32 active ++ d32 standby)
  let c2 := (c1.setEntBit 0x5000 0 9 true).noteFailure
  (if c2.isActive then c2.twinSend 0x0B (d8 3 ++ leBytes 8 c2.clock) else c2).exitStep

/-- One comparison on the STANDBY (R263, R264): its result goes to the ACTIVE chip. -/
def Core.compare (c : Core) (item index : Nat) (ok : Bool) (active standby : Nat) : Core :=
  let key := item * 256 + index
  let c1 := c.twinSend 0x0A (d8 item ++ d8 index ++ d8 (if ok then 1 else 0) ++ d32 active ++ d32 standby)
  if ok then
    { c1 with twin := { c1.twin with
      mismatches := c1.twin.mismatches.put (fun _ => 0) key 0
      matches_ := c1.twin.matches_.mod (fun _ => 0) key (· + 1) } }
  else
    let n := c1.twin.mismatches.get (fun _ => 0) key + 1
    let c2 := { c1 with twin := { c1.twin with
      mismatches := c1.twin.mismatches.put (fun _ => 0) key n
      matches_ := c1.twin.matches_.put (fun _ => 0) key 0 } }
    if item = 1 || c2.ent 0x5030 5 ≤ n then c2.disagree item index active standby else c2

/-- Whether two values lie within a tolerance. -/
def near (a b : Int) (tol : Int) : Bool := decide (a - b ≤ tol) && decide (b - a ≤ tol)

end Sys2Proof.Machine
end

