-- ==== Sys2Proof/Machine/Windows.lean ====
section
/-! DEFINITION. The Timetable and the frame timing: periods, intervals, windows at the balls, the TDD gate and the frame
timing state (R183, R184, R189, R190, R193, R196). -/

namespace Sys2Proof.Machine

/-- The fields of a Timetable entry (R189). -/
def ttTick (e : Nat) : Nat := e % 2 ^ 32
def ttState (e : Nat) : Nat := bits e 39 32
def ttTriggers (e : Nat) : Nat := bits e 43 40
def ttPattern (e : Nat) : Nat := bits e 51 48

/-- The entries in use: those before the first with state 0xFF. -/
def Cfg.entriesInUse (g : Cfg) : List Nat :=
  ((List.range 64).map (fun i => g 0x3211 (i + 1))).takeWhile (fun e => ttState e ≠ 0xFF)

def Cfg.framePeriod (g : Cfg) : Nat := g 0x3210 1
def Cfg.timingSource (g : Cfg) : Nat := g 0x3201 1

/-- The Timetable's intervals as (state, start, end), in ticks from the period start (R190). -/
def intervalsOf (period : Nat) : List Nat → List (Nat × Nat × Nat)
  | [] => []
  | [e] => [(ttState e, ttTick e, period)]
  | e :: f :: r => (ttState e, ttTick e, ttTick f) :: intervalsOf period (f :: r)

def Cfg.intervals (g : Cfg) : List (Nat × Nat × Nat) := intervalsOf g.framePeriod g.entriesInUse

/-- The active windows of a direction, 0 DL or 1 UL (R183). -/
def Cfg.windows (g : Cfg) (dir : Nat) : List (Nat × Nat) :=
  (g.intervals.filter (fun t => t.1 = dir)).map (fun t => t.2)
def Cfg.dirOf (g : Cfg) (p : Nat) : Nat := if g.isUl p then 1 else 0

/-- The frame start F to the nearest tick, ties going up (R194), plus the frame offset O: where period 0 starts (R190). -/
def Core.origin (c : Core) : Int := (c.fe.frame16 + 8) / 16 + c.entS 32 0x3201 9

def Core.ttRunning (c : Core) : Bool := c.entBit 0x3200 0 0

/-- The start of the period that holds station tick `x`, and whether the Timetable acts in it. -/
def Core.periodOf (c : Core) (x : Int) : Int :=
  let p : Int := c.cfg.framePeriod
  if p = 0 then 0 else c.origin + (x - c.origin) / p * p
def Core.acts (c : Core) (start : Int) : Bool :=
  c.ttRunning && (match c.fe.actFrom with | some f => f ≤ start | none => false)

/-- The first period start at or after `x`. -/
def Core.nextPeriod (c : Core) (x : Int) : Int :=
  let s := c.periodOf x
  if s = x then x else s + c.cfg.framePeriod

/-- Whether a sample born at `b` lies inside an active window of path `p` (R183). -/
def Core.inWindow (c : Core) (p : Nat) (b : Int) : Bool :=
  let s := c.periodOf b
  c.acts s && (c.cfg.windows (c.cfg.dirOf p)).any (fun w => s + w.1 ≤ b && b < s + w.2)

/-- The end of the active window of `p` that holds `b`. -/
def Core.windowEnd (c : Core) (p : Nat) (b : Int) : Option Int :=
  let s := c.periodOf b
  ((c.cfg.windows (c.cfg.dirOf p)).find? (fun w => s + w.1 ≤ b && b < s + w.2)).map (fun w => s + w.2)

/-- Whether a cut window, by its end, is still in progress. -/
def Core.windowCut (c : Core) (cut : Option Int) : Bool :=
  match cut with | some e => decide ((c.clock : Int) < e) | none => false

/-- t_rx of a path, and the shift of its transmit windows at the ball (R183). -/
def Cfg.tRx (g : Cfg) (p : Nat) : Nat := if g.offAir p then 3 else 0
def Cfg.latency (g : Cfg) (p : Nat) : Nat := g (pIdx p 0) 11
def Cfg.streamLatency (g : Cfg) (p : Nat) : Nat := g (pIdx p 0) 12
def Cfg.txShift (g : Cfg) (p : Nat) : Int := (g.latency p : Int) - g.tRx p

/-- The transmit windows [s, e) of path `p` at the ball, in the periods around station tick `x` (R183). -/
def Core.txWindows (c : Core) (p : Nat) (x : Int) : List (Int × Int) :=
  let g := c.cfg
  let per : Int := g.framePeriod
  let base := c.periodOf (x - g.txShift p)
  ([base - per, base, base + per].filter c.acts).flatMap (fun s =>
    (g.windows (g.dirOf p)).map (fun w => (s + w.1 + g.txShift p, s + w.2 + g.txShift p)))

/-- The TDD gate of P+0x28.02 (R196). -/
def Core.tddGateOf (c : Core) (p : Nat) : Nat :=
  if !c.cfg.configured p || !c.cfg.isTdd p then 0
  else if c.ent 0x3202 0 = 3 && c.fe.gateOpen then 2
  else if c.ent 0x3202 0 = 4 && (c.path p).wasLive then 3
  else 1

/-- Brings every path's TDD gate up to date, and its mute state with it. -/
def Core.refreshTdd (c : Core) : Core :=
  c.each allPaths (fun c p =>
    let g := c.tddGateOf p
    if c.pe p 0x28 2 = g then c else (c.setPe p 0x28 2 g).refreshPath p)

/-- Brings bit 0 of 0x3200 up to date (R190): the Timetable runs while P is not 0 and the frame timing is SYNCHRONISED or
HOLDOVER. It acts from the first period start at or after the tick on which it begins to run. -/
def Core.refreshRunning (c : Core) : Core :=
  let run := c.cfg.framePeriod ≠ 0 && (c.ent 0x3202 0 = 3 || c.ent 0x3202 0 = 4)
  if run = c.ttRunning then c
  else
    let c1 := c.setEntBit 0x3200 0 0 run
    { c1 with fe := { c1.fe with
        actFrom := if run then some (c1.nextPeriod c1.clock) else none
        entry := none } }

/-- Enters a frame timing state (R193): record 0x0801, the status bits, the Timetable and every TDD gate. -/
def Core.setFrameState (c : Core) (new : Nat) : Core :=
  let old := c.ent 0x3202 0
  if old = new then c
  else
    let c1 := (c.setEnt 0x3202 0 new).emit 36 0x0801
      (d8 0xFF ++ d8 old ++ d8 new ++ d16 (c.ent 0x3203 4) ++ d16 (c.ent 0x3203 5))
    let c2 := ((c1.setEntBit 0x3200 0 1 (new = 3)).setEntBit 0x3200 0 2 (new = 4)).setEntBit 0x3200 0 3 (new = 5)
    let c3 := if new = 3 && old ≠ 4 then
        ({ c2 with fe := { c2.fe with gateOpen := false, everSync := true, holdSince := none } }).each allPaths
          (fun c p => c.modPath p (fun s => { s with wasLive := false }))
      else if new = 3 then
        ({ c2 with fe := { c2.fe with gateOpen := false, holdSince := none } }).each allPaths
          (fun c p => c.modPath p (fun s => { s with wasLive := c.entBit 0x110A 0 p }))
      else { c2 with fe := { c2.fe with holdSince := if new = 4 then some c2.now else none } }
    c3.refreshRunning.refreshTdd

/-- The frame timing state under source 0 and source 2 (R192, R193): OFF without a source or period, and under source 2 as
the time status says; a holdover past its limit stays LOST until the time is LOCKED again. -/
def Core.followTime (c : Core) : Core :=
  let src := c.cfg.timingSource
  if src = 0 || c.cfg.framePeriod = 0 then (c.setFrameState 0).refreshRunning
  else if src = 2 then
    let c0 := { c with fe := { c.fe with frame16 := 0, slew16 := 0 } }
    let st := c0.ent 0x1221 0
    if st = 2 then c0.setFrameState 3
    else if st = 3 then (if c0.ent 0x3202 0 = 5 then c0 else c0.setFrameState 4)
    else if c0.fe.everSync then c0.setFrameState 5
    else c0.setFrameState 1
  else if c.ent 0x3202 0 = 0 then c.setFrameState 1
  else c.refreshRunning

/-- The holdover limit in force (R193). -/
def Core.holdLimit (c : Core) : Nat :=
  (if c.cfg.timingSource = 2 then min (c.ent 0x1224 0) (c.ent 0x3201 8) else c.ent 0x3201 8) * second

/-- The fabric factor m in hundredths (R462). -/
def fabricFactor (hottest : Option Int) (load : Nat) : Nat :=
  let row := match hottest with
    | none => (104, 98, 95)
    | some t => if t ≤ -4000 then (80, 74, 71) else if t ≤ 2500 then (86, 80, 77) else if t ≤ 8500 then (94, 88, 85)
      else if t ≤ 11000 then (100, 94, 91) else (104, 98, 95)
  if load ≤ 32 then row.2.2 else if load ≤ 64 then row.2.1 else row.1

/-- The fabric work in progress, in rate units of the paths that compute (R462). -/
def Core.fabricLoad (c : Core) : Nat :=
  ((allPaths.filter (fun p => (c.path p).computing)).map (fun p => unitsOf (c.cfg.rate p))).sum

def Core.fabricNow (c : Core) : Nat :=
  fabricFactor (if c.ent 0x6002 0 = 0x8000 then none else some (c.entS 16 0x6002 0)) c.fabricLoad

/-- slack_min of a path for one of its latencies (R62), in ticks. -/
def Core.slackMin (c : Core) (p : Nat) (toRfout : Bool) : Int :=
  let g := c.cfg
  let lat := if toRfout then g.latency p else g.streamLatency p
  (lat : Int) - g.lMin p toRfout + ((g.fRef p : Int) * (100 - (c.fabricNow : Int))) / 100

end Sys2Proof.Machine
end

