-- ==== Sys2Proof/Machine/Points.lean ====
section
/-! DEFINITION. Points pairs: a change of branch and the fall-back to one branch (R198 to R201). -/

namespace Sys2Proof.Machine

/-- The station clock's advance by `d` ticks, modulo 2^64. -/
def wrapClock (x : Int) : Nat := (x % (2 ^ 64 : Nat)).toNat

def Core.setPoints (c : Core) (k : Nat) (p : PointsSt) : Core :=
  { c with fe := { c.fe with points := c.fe.points.put (fun _ => PointsSt.init) k p } }
/-- The RFOUT and receive side of a port (R183). -/
def Cfg.portRfout (g : Cfg) (t : Nat) : Nat := g (0x3240 + t) 1
def Cfg.portSide (g : Cfg) (t : Nat) : Nat := g (0x3240 + t) 2
/-- A branch is missing for its converter or a Guard overload mute (R201). -/
def Core.branchDown (c : Core) (rfin : Nat) : Bool :=
  8 ≤ rfin || bits (c.ent 0x2803 (rfin + 1)) 1 0 ≠ 3 || c.ent 0x3121 (rfin + 1) ≠ 0

/-- The effect tick c of a Points change decided now (R200). -/
def Core.pointsTick (c : Core) (k : Nat) : Option Int :=
  let g := c.cfg
  let x : Int := c.clock
  let per : Int := g.framePeriod
  let base := c.periodOf x
  let starts := [base - per, base, base + per].filter c.acts
  let guards := ([base, base + per, base + 2 * per].filter c.acts).flatMap (fun s =>
    (g.intervals.filter (fun t => t.1 = 2 && 1024 + t.2.1 ≤ t.2.2)).map (fun t => s + (t.2.1 : Int)))
  match guards.find? (fun s => x < s) with
  | none => none
  | some gs =>
    let ports := [0, 1, 2, 3].filter (fun t => g.portSide t = 0x80 + k)
    let ends := ports.flatMap (fun t =>
      (allPaths.filter (fun p => g.configured p && g.isTdd p && (g.rfouts p).contains (g.portRfout t))).flatMap (fun p =>
        (starts ++ [base + 2 * per]).flatMap (fun s =>
          ((g.windows (g.dirOf p)).filter (fun w => s + (w.2 : Int) ≤ gs)).map (fun w => s + (w.2 : Int) + g.txShift p))))
    let e := match ends.max? with | some e => e | none => gs
    some (max (gs + 393) (e + 274))

/-- The ACTIVE chip of a pair sends a Points change: pair, branch, effect tick (R258). -/
def Core.pointsSend (c : Core) (k branch tick : Nat) : Core :=
  if c.shared then c.twinSend 0x03 (d8 k ++ d8 branch ++ leBytes 8 tick) else c

/-- Places a pending change: its tick, and that of the POINTS output (R200), and the pair is told; not placed while no guard
interval is ahead. -/
def Core.pointsPlace (c : Core) (k : Nat) : Core :=
  let p := c.points k
  match p.pending with
  | none => c
  | some branch =>
    let at_ := (c.pointsTick k).map wrapClock
    let c1 := c.setPoints k { p with
      changeAt := at_
      pinAt := at_.map (fun t => wrapClock ((t : Int) + c.entS 16 (0x3250 + k) 7))
      pinTo := branch = 1 }
    match at_ with
    | some t => if p.changeAt = at_ then c1 else c1.pointsSend k branch t
    | none => c1

/-- Makes a branch change pending and places it (R199, R200). -/
def Core.pointsPend (c : Core) (k branch : Nat) : Core :=
  (c.setPoints k { c.points k with pending := some branch, wins := 0 }).pointsPlace k

/-- Withdraws a pending change: the POINTS output keeps to the selected branch (R201). -/
def Core.pointsCancel (c : Core) (k : Nat) : Core :=
  let p := c.points k
  (c.setPoints k { p with pending := none, changeAt := none, pinAt := some c.clock, pinTo := c.ent (0x3250 + k) 9 = 1 }).pointsSend
    k (c.ent (0x3250 + k) 9) c.clock

/-- The ACTIVE's change reaches the STANDBY (R260): it takes effect there on its tick, the POINTS level with it. -/
def Core.pointsFollow (c : Core) (k branch tick : Nat) : Core :=
  c.setPoints k { c.points k with
    follow := some (tick, branch), pinAt := some (wrapClock ((tick : Int) + c.entS 16 (0x3250 + k) 7)), pinTo := branch = 1 }

/-- The POINTS levels of copied branches (R265). -/
def Core.alignPoints (c : Core) : Core :=
  c.each [0, 1] (fun c k =>
    let p := c.points k
    c.setPoints k { p with
      pin := c.ent (0x3250 + k) 9 = 1, pinAt := if p.follow.isSome then p.pinAt else none, since := none })

/-- Sets the Points state, with record 0x0806 and the status bit where a fall-back is entered or left (R201). -/
def Core.setPointsState (c : Core) (k new remaining : Nat) : Core :=
  let old := c.ent (0x3250 + k) 8
  let fall := fun n => decide (n = 2 ∨ n = 3)
  let c1 := (c.setEnt (0x3250 + k) 8 new).setEntBit 0x3200 0 (4 + k) (fall new)
  if fall old ≠ fall new then c1.emit 36 0x0806 (d8 k ++ d8 remaining) else c1

/-- A pair in mode 2 falls back to the branch that remains, or selects again (R201). -/
def Core.pointsFall (c : Core) (k : Nat) : Core :=
  let p := c.points k
  let selected := c.ent (0x3250 + k) 9
  if c.ent (0x3250 + k) 3 ≠ 2 || 8 ≤ c.ent (0x3250 + k) 1 then c
  else if p.lostA && p.lostB then c.setPointsState k 4 selected
  else if p.lostA || p.lostB then
    let remaining := if p.lostA then 1 else 0
    let c1 := c.setPointsState k (if p.lostA then 3 else 2) remaining
    if selected ≠ remaining && p.pending ≠ some remaining then c1.pointsPend k remaining
    else if selected = remaining && p.pending.isSome then c1.pointsCancel k else c1
  else c.setPointsState k 1 selected

/-- A branch whose converter is down, or that an overload mute holds, is missing at once (R201). -/
def Core.refreshPoints (c : Core) : Core :=
  c.each [0, 1] (fun c k =>
    let p := c.points k
    let downA := c.branchDown (c.ent (0x3250 + k) 1)
    let downB := c.branchDown (c.ent (0x3250 + k) 2)
    if (!downA || p.lostA) && (!downB || p.lostB) then c
    else (c.setPoints k { p with
      lostA := p.lostA || downA, lostB := p.lostB || downB,
      goodA := if downA then 0 else p.goodA, goodB := if downB then 0 else p.goodB }).pointsFall k)

end Sys2Proof.Machine
end

