-- ==== Sys2Proof/Machine/Guard.lean ====
section
/-! DEFINITION. The Guard (R157 to R182): its actions, the conditions it watches, and its timers. -/

namespace Sys2Proof.Machine

/-- A Guard action on the decision stream (R258): item, action of R157, decision tick; with the event code that caused it
and its value, in the layout this model gives the record. -/
def Core.guardSend (c : Core) (item action cause : Nat) (value : Int) : Core :=
  c.twinSend (if c.ent 0x5001 0 = 2 then 2 else 1)
    (d8 item ++ d8 action ++ leBytes 8 c.clock ++ d16 cause ++ dS16 value)

/-- A capture of point kind `kind` and number `p` whose trigger is a Guard action takes its trigger from this tick on
(R129). -/
def Core.fireCaptures (c : Core) (ok : Nat → Bool) : Core :=
  c.each [0, 1, 2, 3] (fun c n =>
    let st := c.ent (0x2A10 + n) 9
    if c.ent (0x2A10 + n) 4 = 4 && (st = 1 || st = 2) && ok (c.ent (0x2A10 + n) 1) && (c.capture n).fired.isNone
      then c.setCapture n { c.capture n with fired := some c.clock } else c)
def capturesPath (p point : Nat) : Bool := (point / 256 = 1 || point / 256 = 2) && point % 256 = p
def capturesMonitor (point : Nat) : Bool := point / 256 = 3

/-- A STANDBY notes its own decision, to be compared with the ACTIVE's (R263). -/
def Core.noteDecision (c : Core) (p cause : Nat) : Core :=
  if c.isStandby && c.paired then { c with twin := { c.twin with decisions := c.twin.decisions ++ [(p, cause, c.now)] } } else c

/-- What goes with an action on one path: the captures that wait for it (R129), the STANDBY's note, and the stream. -/
def Core.guardActed (c : Core) (p action cause : Nat) (value : Int) : Core :=
  ((c.fireCaptures (capturesPath p)).noteDecision p cause).guardSend p action cause value

/-- A decision on one path: its summary, limit and mutes (R157, R158), and what goes with an action. -/
def Core.guardApply (c : Core) (p cause : Nat) (value : Int) : Core :=
  let old := c.pe p 0x24 1
  let c1 := c.guardRefresh p
  let new := c1.pe p 0x24 1
  if newBits old new = 0 then c1
  else c1.guardActed p (if newBits (old % 256) (Nat.land new 0xA9) = 0 then 1 else 2) cause value

/-- A further step of a backoff already in force is an action too (R157, R165, R169): it counts, it raises the IRQ cause, and
it aborts the path's sweep (R173). -/
def Core.guardDeepen (c : Core) (p cause : Nat) (value : Int) : Core :=
  let old := c.pe p 0x24 1
  if newBits old (c.guardCauses p) ≠ 0 then c.guardApply p cause value
  else (((c.count (pIdx p 0x24) 3 1).irq 5).endSweep p 6).guardRefresh p |>.guardActed p 1 cause value

/-- A node-wide action: the captures of monitor RFINs, the IRQ cause, every sweep's end (R173), and the stream. -/
def Core.guardNode (c : Core) (action cause : Nat) (value : Int) : Core :=
  (((c.each allPaths (fun c p => c.endSweep p 6)).fireCaptures capturesMonitor).irq 5).guardSend 0xFF action cause value

/-- The episode of R179 for a node mute on a twin pair. -/
def Core.nodeYield (c : Core) (cause : Nat) : Core :=
  if c.ent 0x5002 0 = 1 || c.ent 0x5002 0 = 2 then c.yieldPromise 0xFF 2 5 cause else c

/-- The Guard latches ISOLATE (R175). -/
def Core.guardLatch (c : Core) (cause : Nat) : Core :=
  if c.latched then c else ((c.latch cause).guardNode 5 cause 0).nodeYield 0x0703

/-- The unverified backoff (R169): the largest of the receivers that watch an unverified path. -/
def Core.unverifiedBackoff (c : Core) : Int :=
  ([0, 1].filter (fun k => allPaths.any (fun p => (c.path p).guard.unverified &&
    (c.cfg.rfouts p).contains (c.ent (0x3110 + k) 2)))).foldl (fun m k => min m (c.cdb (0x3110 + k) 4)) 0

/-- Brings the node backoff up to date (R159): its bits, record 0x070E, and the mode. -/
def Core.refreshNode (c : Core) : Core :=
  let old := c.cdb 0x3101 0
  let u := c.unverifiedBackoff
  let new := min (c.cdb 0x3102 0) u
  let c1 := (c.setEntBit 0x3100 0 0 (c.cdb 0x3102 0 ≠ 0)).setEntBit 0x3100 0 3
    (allPaths.any (fun p => (c.path p).guard.unverified))
  if new = old then c1
  else
    let c2 := (c1.setCdb 0x3101 0 (some new)).emit 35 0x070E (d8 0xFF ++ dS16 old ++ dS16 new)
    (if new < old then c2.guardNode 3 0x070E (c2.cdb 0x3102 0) else c2).recompute

/-- The decisions or mutes of a list that still count, and those with one more. -/
def within60 (l : List Nat) (now span : Nat) : List Nat := l.filter (fun t => now < t + span)

/-- s_ref() of R161. -/
def Core.oscReference (c : Core) (p j : Nat) : Int :=
  let g := (c.path p).guard
  let span := 2 * (c.pe p 0x10 1 * ms)
  let stop := match g.stopping with
    | some (l, t) => if c.now ≤ t + span then some l else none
    | none => none
  match stop with
  | some l => l
  | none =>
    ((g.history.filter (fun e => 9 ≤ diff32 j e.1 && diff32 j e.1 ≤ 16)).map Prod.snd).min? |>.getD (-20000)

/-- An oscillation decision (R163). -/
def Core.oscDecide (c : Core) (p : Nat) (level ref : Int) (rho : Nat) : Core :=
  let now60 := within60 (c.path p).guard.decisions c.now (60 * second)
  let l := now60 ++ [c.now]
  let third := 3 ≤ l.length
  let c1 := ((c.setPe p 0x20 4 3).count (pIdx p 0x20) 6 1).setPe p 0x20 7 c.clock
  let c2 := c1.modGuardPath p (fun g => { g with
    decisions := l, oscLift := if third then none else some (c.now + second) })
  let c3 := c2.emit 35 0x0701 (d8 p ++ dS16 level ++ dS16 ref ++ d16 rho ++ d8 (min 3 l.length))
  let c4 := c3.guardApply p 0x0701 0
  let c5 := if c4.cdb 0x3102 0 = 0 then c4.yieldPromise 0xFF 2 6 0x0701 else c4
  let c6 := ({ (c5.setCdb 0x3102 0 (some (-600))) with
    guard := { c5.guard with retryAt := some (c5.now + 60 * second) } }).refreshNode
  if third then c6.guardLatch 0x0701 else c6

/-- The oscillation detector at the end of a reported Express window at the input (R161). -/
def Core.oscWindow (c : Core) (p j : Nat) (level : Int) (changed : Bool) (rho : Nat) : Core :=
  let keep := fun (c : Core) => c.modGuardPath p (fun g => { g with
    history := ((j, level) :: g.history).filter (fun e => diff32 j e.1 ≤ 16) })
  let st := c.pe p 0x20 4
  if changed || (st ≠ 1 && st ≠ 2) || !c.cfg.needsCeiling p then keep c
  else
    let ref := c.oscReference p j
    let c0 := c.setCdb (pIdx p 0x20) 8 (some ref)
    let g := (c0.path p).guard
    let high := decide (level - ref > c0.cdb (pIdx p 0x20) 1) && decide (c0.pe p 0x20 2 ≤ rho)
    let c1 :=
      if st = 1 then
        (if high then (c0.setPe p 0x20 4 2).modGuardPath p (fun g => { g with j0 := j, n := 1, e0 := level }) else c0)
      else
        let n := if high then g.n + 1 else g.n
        let c' := c0.modGuardPath p (fun g => { g with n := n })
        if c'.pe p 0x20 3 ≤ n && g.e0 ≤ level then c'.oscDecide p level ref rho
        else if 7 ≤ diff32 j g.j0 then c'.setPe p 0x20 4 1
        else c'
    keep c1

/-- The squelch at an Express window at the input (R164). -/
def Core.squelchWindow (c : Core) (p : Nat) (level : Option Int) : Core :=
  if c.pe p 0x21 6 = 0 then c
  else match level with
    | none => c.modGuardPath p (fun g => { g with belowRun := 0 })
    | some e =>
      if c.pe p 0x21 6 = 1 then
        (if c.cdb (pIdx p 0x21) 2 ≤ e then
          (((c.setPe p 0x21 6 2).count (pIdx p 0x21) 7 1).modGuardPath p (fun g => { g with belowRun := 0 })).guardApply p 0 0
        else c)
      else
        let run := if e < c.cdb (pIdx p 0x21) 2 - c.cdb (pIdx p 0x21) 3 then (c.path p).guard.belowRun + 1 else 0
        if c.pe p 0x21 4 ≤ run then
          ((c.setPe p 0x21 6 1).modGuardPath p (fun g => { g with belowRun := 0 })).guardApply p 0 (c.cdb (pIdx p 0x21) 5)
        else c.modGuardPath p (fun g => { g with belowRun := run })

/-- The squelch's state where it is enabled or disabled, or its path goes live: closed is the state on entry. -/
def Core.squelchEntry (c : Core) (p : Nat) : Core :=
  let on := c.pe p 0x21 1 = 1 && c.cfg.isUl p && c.cfg.offAir p && c.entBit 0x110A 0 p
  ((c.setPe p 0x21 6 (if on then 1 else 0)).modGuardPath p (fun g => { g with belowRun := 0 })).guardApply p 0
    (c.cdb (pIdx p 0x21) 5)

/-- The overload warning (R166): bit 6 of 0x3100 while a path's level is at or above it, and one record a second for each
RFIN. -/
def Core.overWarning (c : Core) (p : Nat) (level : Option Int) : Core :=
  let thr := c.cdb 0x3120 4
  let at' := fun (q : Nat) => c.cfg.offAir q && (match c.cdb? (pIdx q 0x11) 1 with | some e => decide (thr ≤ e) | none => false)
  let c1 := c.setEntBit 0x3100 0 6 (allPaths.any at')
  match level, c.rfinOf p with
  | some e, some n => if c.cfg.offAir p && thr ≤ e then c1.firstInSecond 35 0x0707 n (d8 n ++ dS16 e) else c1
  | _, _ => c1

/-- What the Guard does at the end of an Express window at the input point. -/
def Core.guardExpress (c : Core) (p j : Nat) (level : Option Int) (flags rho : Nat) : Core :=
  let c1 := match level with | some e => c.oscWindow p j e (bit flags 3) rho | none => c
  (c1.squelchWindow p level).overWarning p level

/-- What the Guard does at a reported Stopping interval at the output point (R165). -/
def Core.noiseInterval (c : Core) (p : Nat) (level : Int) : Core :=
  if c.pe p 0x22 1 ≠ 1 || !c.cfg.isUl p then c
  else
    let b := c.cdb (pIdx p 0x22) 4
    let limit := c.cdb (pIdx p 0x22) 2
    let step := fun (c : Core) (deeper : Bool) (b : Int) =>
      let c1 := ((c.setCdb (pIdx p 0x22) 4 (some b)).count (pIdx p 0x22) 5 1).emit 35 0x0705 (d8 p ++ dS16 b)
      if deeper then c1.guardDeepen p 0x0705 b else c1.guardApply p 0x0705 b
    if limit < level then
      let c1 := c.modGuardPath p (fun g => { g with noiseRun := 0 })
      let b' := max (c.cdb (pIdx p 0x22) 3) (b - 100)
      if b' < b then step c1 true b' else c1
    else if level ≤ limit - 100 then
      let run := (c.path p).guard.noiseRun + 1
      if run < 10 then c.modGuardPath p (fun g => { g with noiseRun := run })
      else
        let c1 := c.modGuardPath p (fun g => { g with noiseRun := 0 })
        if b < 0 then step c1 false (min 0 (b + 100)) else c1
    else c.modGuardPath p (fun g => { g with noiseRun := 0 })

/-- Timers of the Guard run in every mode but ISOLATE (R173). -/
def Core.guardDue (c : Core) (d : Option Nat) : Bool := !c.latched && c.reached d

/-- An oscillation mute lifts after 1 s (R163). -/
def execOscillationRetry (p : Fin 32) (s : State) : Out :=
  s.event (fun c => c.pe p 0x20 4 = 3 && c.guardDue (c.path p).guard.oscLift) (fun c =>
    let c1 := (c.setPe p 0x20 4 0).modGuardPath p (fun g => { g with oscLift := none })
    (c1.emit 35 0x0702 (d8 p ++ d16 (c1.ent 0x3102 0))).guardApply p 0x0702 0)

/-- A step of the retry backoff's release (R163). -/
def execRetryBackoffRelease (s : State) : Out :=
  s.event (fun c => c.guardDue c.guard.retryAt) (fun c =>
    let b := min 0 (c.cdb 0x3102 0 + 100)
    ({ (c.setCdb 0x3102 0 (some b)) with
      guard := { c.guard with retryAt := if b = 0 then none else some (c.now + second) } }).refreshNode)

/-- Overload as it stands on a path: the state of the RFIN that feeds it, and the paths it changes (R166). -/
def Core.refreshOverload (c : Core) : Core :=
  c.refreshPoints.each allPaths (fun c p =>
    let ranged := match c.rfinOf p with | some n => c.cfg.offAir p && n < 8 && c.ent 0x3121 (n + 1) ≠ 0 | none => false
    if (c.path p).guard.overload = ranged then c
    else (c.modGuardPath p (fun g => { g with overload := ranged })).guardApply p 0x0706 (if ranged then 1 else 0))

/-- An over-range window of an RFIN ends (R166). -/
def Core.overWindow (c : Core) (n : Nat) : Core :=
  let r := c.rfin n
  let st := c.ent 0x3121 (n + 1)
  let high := decide (c.ent 0x3120 1 ≤ r.overRange)
  let run := if high then r.run + 1 else 0
  let act := decide (c.ent 0x3120 2 ≤ run) && st = 0
  let release := if st = 0 || high then (if act || high then none else r.releaseAt)
    else if r.releaseAt.isNone then some (c.now + c.ent 0x3120 3 * ms) else r.releaseAt
  let c1 := c.setRfin n { r with overRange := 0, run := run, releaseAt := release }
  if act then
    ((((c1.setEnt 0x3121 (n + 1) 1).count 0x3122 (n + 1) 1).emit 35 0x0706 (d8 n ++ d8 1 ++ d32 run)).irq 5).refreshOverload
  else if st = 0 then c1
  else c1.setEnt 0x3121 (n + 1) (if high then 1 else 2)

def execOverloadWindowEnd (n : Fin 8) (s : State) : Out :=
  s.event (fun c => c.awake && c.clock % 128 = 0 && (c.ent 0x2800 (n + 1) = 1 || c.ent 0x2800 (n + 1) = 2))
    (fun c => c.overWindow n)

def execOverloadRelease (n : Fin 8) (s : State) : Out :=
  s.event (fun c => c.ent 0x3121 (n + 1) = 2 && c.guardDue (c.rfin n).releaseAt) (fun c =>
    (((c.setRfin n { c.rfin n with releaseAt := none }).setEnt 0x3121 (n + 1) 0).emit 35 0x0706
      (d8 n ++ d8 0 ++ d32 (c.rfin n).run)).refreshOverload)

/-- The limits of R168 in 0.01 dB by mask class. -/
def maskLimits (mask : Nat) : Int × Int :=
  match mask with | 0 => (-4300, -4800) | 1 => (-4500, -5000) | 2 => (-5000, -5500) | _ => (-5500, -6000)

/-- Whether a TDD path had a transmit window in the 491,520 ticks before `x`. -/
def Core.hadWindow (c : Core) (p : Nat) : Bool :=
  !c.cfg.isTdd p || (c.txWindows p c.clock).any (fun w => w.1 < c.clock && (c.clock : Int) - 491520 < w.2) ||
    (c.txWindows p ((c.clock : Int) - 491520)).any (fun w => w.1 < c.clock && (c.clock : Int) - 491520 < w.2)

/-- The side and channel of the worst ratio, with the smallest margin: 1 lower and 2 upper, first or second channel. -/
def oobWorst (m : OobMeasurement) (lim : Int × Int) : Int × Nat × Nat :=
  let l := [(lim.1 - (m.lower1 - m.inChannel), 1, 1), (lim.1 - (m.upper1 - m.inChannel), 2, 1),
    (lim.2 - (m.lower2 - m.inChannel), 1, 2), (lim.2 - (m.upper2 - m.inChannel), 2, 2)]
  l.foldl (fun b e => if e.1 < b.1 then e else b) (lim.1 - (m.lower1 - m.inChannel), 1, 1)

/-- Record 0x0708 at the start or end of a breach. The manual gives the side no coding: an open value. -/
def Core.breachRecord (c : Core) (p : Nat) (w : Int × Nat × Nat) : Core :=
  let r := c.draw
  r.2.emit 35 0x0708 (d8 p ++ d8 (r.1 + w.2.1) ++ d8 w.2.2 ++ dS16 (clampI (-32767) 32767 w.1))

/-- A check without a value (R169). -/
def Core.oobNoValue (c : Core) (k p : Nat) : Core :=
  let c1 := ((c.count (0x3110 + k) 6 1).setPe p 0x23 4 noCdb).setPe p 0x23 5 (if (c.path p).guard.oobLift.isSome then 3 else 0)
  c1.modGuardPath p (fun g => { g with noValueSince := some (g.noValueSince.getD c.now) })

/-- The state P+0x23.05 after a check with a value. -/
def Core.oobState (c : Core) (p : Nat) : Core :=
  let g := (c.path p).guard
  c.setPe p 0x23 5 (if g.oobLift.isSome then 3 else if c.cdb (pIdx p 0x23) 3 < 0 || g.breach then 2 else 1)

/-- The third floor mute in an hour, or the mute alone (R169). -/
def Core.oobMute (c : Core) (p : Nat) : Core :=
  let l := within60 (c.path p).guard.floorMutes c.now (3600 * second) ++ [c.now]
  let c1 := c.modGuardPath p (fun g => { g with floorRun := 0, floorMutes := l, oobLift := some (c.now + second) })
  let c2 := ((c1.setPe p 0x23 5 3).emit 35 0x0709 (d8 p ++ d32 (min 3 l.length))).guardApply p 0x0709 0
  if 3 ≤ l.length then c2.guardLatch 0x0709 else c2

/-- A check with a value (R168, R169). -/
def Core.oobValue (c : Core) (p : Nat) (m : OobMeasurement) : Core :=
  let w := oobWorst m (maskLimits (romMask (c.cfg.response p)))
  let g := (c.path p).guard
  let wasUnverified := g.unverified
  let c0 := (c.setCdb (pIdx p 0x23) 4 (some (clampI (-32767) 32767 w.1))).modGuardPath p
    (fun g => { g with noValueSince := none, unverified := false })
  let c1 := if wasUnverified then
      let k := if (c.cfg.rfouts p).contains (c.ent 0x3110 2) then 0 else 1
      (c0.emit 35 0x070A (d8 p ++ d8 k)).refreshNode
    else c0
  let b := c1.cdb (pIdx p 0x23) 3
  let floor := c1.cdb (pIdx p 0x23) 2
  if w.1 < 0 then
    let c2 := c1.count (pIdx p 0x23) 6 1
    let c3 := if g.breach then c2 else c2.breachRecord p w
    let c4 := c3.modGuardPath p (fun g => { g with breach := true, passRun := 0 })
    if b ≤ floor then
      let run := (c4.path p).guard.floorRun + 1
      if 10 ≤ run && g.oobLift.isNone then c4.oobMute p
      else (c4.modGuardPath p (fun g => { g with floorRun := run })).oobState p
    else
      let b' := max floor (b - 100)
      let c5 := if b = 0 then c4.yieldPromise p 2 6 0x0708 else c4
      ((c5.setCdb (pIdx p 0x23) 3 (some b')).guardDeepen p 0x0708 b').oobState p
  else
    let c2 := if g.breach then c1.breachRecord p w else c1
    let run := if 100 ≤ w.1 then g.passRun + 1 else 0
    let c3 := c2.modGuardPath p (fun g => { g with breach := false, floorRun := 0, passRun := if 100 ≤ run then 0 else run })
    if 100 ≤ run && b < 0 then ((c3.setCdb (pIdx p 0x23) 3 (some (min 0 (b + 100)))).guardApply p 0x0708 (min 0 (b + 100))).oobState p
    else c3.oobState p

/-- One power a receiver or detector measures on an RFOUT with live paths, under key `key` (R269): noted before a proving
swap; during its dwell compared with the value noted. -/
def Core.provingSample (c : Core) (key : Nat) (level : Int) : Core :=
  let t := c.twin
  match t.dwellEnd with
  | none => { c with twin := { t with before := t.before.put (fun _ => -99999) key level } }
  | some _ =>
    let b := t.before.get (fun _ => -99999) key
    if b = -99999 then c
    else
      let d : Int := (level - b).natAbs
      let n := if 10 ≤ t.differences then t.differences else if c.cdb 0x7010 3 < d then t.differences + 1 else 0
      { c with twin := { t with differences := n, maxDifference := max t.maxDifference d } }

/-- Whether receiver k is set up: a monitor RFIN and an RFOUT (R167). -/
def Core.receiverOn (c : Core) (k : Nat) : Bool := c.ent (0x3110 + k) 1 < 8 && c.ent (0x3110 + k) 2 < 8

/-- The paths a check of receiver k measures (R167). -/
def Core.checked (c : Core) (k : Nat) : List Nat :=
  allPaths.filter (fun p => c.cfg.configured p && (c.cfg.rfouts p).contains (c.ent (0x3110 + k) 2) &&
    c.pe p 0x23 1 = 1 && 8 ≤ c.cfg.response p)

/-- A check of an observation receiver (R167, R169). -/
def Core.oobCheck (c : Core) (k : Nat) (ms : List OobMeasurement) : Core :=
  let rfin := c.ent (0x3110 + k) 1
  let ready := c.entBit 0x2803 (rfin + 1) 0 && c.entBit 0x2803 (rfin + 1) 1
  (c.setEntBit 0x3100 0 (4 + k) true).each (c.checked k) (fun c p =>
    let c1 := c.wrapAdd 32 (0x3110 + k) 5 1
    match ms.find? (fun m => m.path.val = p) with
    | some m =>
      let c1 := if c.twinOn && c.entBit 0x110A 0 p then c1.provingSample p m.inChannel else c1
      if ready && -5000 ≤ m.inChannel && c.hadWindow p then c1.oobValue p m else c1.oobNoValue k p
    | none => c1.oobNoValue k p)

/-- A mute at the floor lifts after 1 s, with the backoff still at the floor (R169). -/
def execOobMuteLift (p : Fin 32) (s : State) : Out :=
  s.event (fun c => c.guardDue (c.path p).guard.oobLift) (fun c =>
    ((c.modGuardPath p (fun g => { g with oobLift := none })).oobState p).guardApply p 0x0709 0)

/-- A path's checks have had no value for the limit of receiver k (R169). -/
def execUnverifiedBackoff (k : Fin 2) (p : Fin 32) (s : State) : Out :=
  s.event (fun c => c.receiverOn k && (c.cfg.rfouts p).contains (c.ent (0x3110 + k) 2) && !(c.path p).guard.unverified &&
      (match (c.path p).guard.noValueSince with | some t => decide (t + c.ent (0x3110 + k) 3 * second ≤ c.now) | none => false))
    (fun c => ((c.modGuardPath p (fun g => { g with unverified := true })).emit 35 0x070A (d8 p ++ d8 k)).refreshNode)

def Core.refl (c : Core) (o : Nat) : ReflSt := c.guard.refl.get (fun _ => ReflSt.init) o
def Core.setRefl (c : Core) (o : Nat) (r : ReflSt) : Core :=
  { c with guard := { c.guard with refl := c.guard.refl.put (fun _ => ReflSt.init) o r } }

/-- Bit 7 of 0x3100: a detector in use is stale. -/
def Core.refreshStale (c : Core) : Core :=
  c.setEntBit 0x3100 0 7 ((List.range 8).any (fun o => c.ent (0x3140 + o) 1 = 1 && (c.refl o).stale))

/-- A reflected-power action (R170): its record and count. The manual gives the action no coding: an open value. -/
def Core.reflRecord (c : Core) (o : Nat) : Core :=
  let r := c.draw
  (r.2.count (0x3140 + o) 11 1).emit 35 0x070B (d8 o ++ d16 (r.2.ent (0x3140 + o) 10) ++ d8 r.1)

/-- Sets or clears the reflected backoff or mute on the paths bound to an RFOUT. -/
def Core.reflSet (c : Core) (o : Nat) (backoff mute : Bool) : Core :=
  c.each (c.cfg.boundTo o) (fun c p =>
    (c.modGuardPath p (fun g => { g with reflBackoff := backoff, reflMute := mute })).guardApply p 0x070B
      (if backoff then -600 else 0))

def Core.reflBacked (c : Core) (o : Nat) : Bool := (c.cfg.boundTo o).any (fun p => (c.path p).guard.reflBackoff)

/-- A counted sample of RFOUT o's detectors (R170). -/
def Core.reflSample (c : Core) (o : Nat) (rl : Int) : Core :=
  let r := c.refl o
  let b := if rl < c.cdb (0x3140 + o) 8 then r.backoffRun + 1 else 0
  let m := if rl < c.cdb (0x3140 + o) 9 then r.muteRun + 1 else 0
  let good := if c.cdb (0x3140 + o) 8 + 100 ≤ rl then some (r.goodSince.getD c.now) else none
  let c1 := c.setRefl o { r with backoffRun := b, muteRun := m, goodSince := good }
  let c2 := if 3 ≤ b && !c1.reflBacked o then (c1.reflSet o true r.liftAt.isSome).reflRecord o else c1
  if 3 ≤ m && r.liftAt.isNone then
    let l := within60 r.mutes c2.now (60 * second) ++ [c2.now]
    let c3 := c2.setRefl o { c2.refl o with mutes := l, muteRun := 0, liftAt := some (c2.now + second) }
    let c4 := (c3.reflSet o true true).reflRecord o
    if 3 ≤ l.length then c4.guardLatch 0x070B else c4
  else c2

/-- What an HK result on `ch` means for the detectors that read it (R170): a sample once both channels are fresh, which a
result flagged as open wire or without value is not (R379). A sample that does not count ends the second of counted samples
that a release needs (DESIGN CHOICE, log 125). -/
def Core.reflResult (c : Core) (ch : Nat) : Core :=
  c.each (List.range 8) (fun c o =>
    let i := 0x3140 + o
    let f := c.ent i 2
    let v := c.ent i 3
    if c.ent i 1 = 1 && (f = ch || v = ch) && f < 48 && v < 48 then
      let r := c.refl o
      let sf := c.ent 0x6232 (f + 1)
      let sr := c.ent 0x6232 (v + 1)
      if sf = r.seqF || sr = r.seqR || !c.hkUsable f || !c.hkUsable v then c
      else
        let slope : Int := c.ent i 4
        let lf := openRound (((c.ent 0x6230 (f + 1) : Int) - c.ent i 5) * slope) 100
        let lr := openRound (((c.ent 0x6230 (v + 1) : Int) - c.ent i 6) * slope) 100
        let rl := clampI (-32767) 32767 (lf - lr)
        let c1 := ((c.setRefl o { r with seqF := sf, seqR := sr, lastFresh := c.now, stale := false }).setCdb i 10
          (some rl)).refreshStale
        let c2 := if c.twinOn && (c.cfg.boundTo o).any (fun p => c.entBit 0x110A 0 p) &&
            !([0, 1].any (fun k => c.receiverOn k && c.ent (0x3110 + k) 2 = o)) then c1.provingSample (32 + o) lf else c1
        if c.cdb i 7 ≤ lf then c2.reflSample o rl else c2.setRefl o { c2.refl o with goodSince := none }
    else c)

def execReflectedMuteLift (o : Fin 8) (s : State) : Out :=
  s.event (fun c => c.guardDue (c.refl o).liftAt) (fun c =>
    ((c.setRefl o { c.refl o with liftAt := none }).reflSet o true false).reflRecord o)

def execReflectedBackoffRelease (o : Fin 8) (s : State) : Out :=
  s.event (fun c => c.reflBacked o && (c.refl o).liftAt.isNone && !(c.refl o).stale && c.guardDue ((c.refl o).goodSince.map (· + second)))
    (fun c => ((c.setRefl o { c.refl o with goodSince := none, backoffRun := 0 }).reflSet o false false).reflRecord o)

def execReflectedStale (o : Fin 8) (s : State) : Out :=
  s.event (fun c => c.ent (0x3140 + o) 1 = 1 && !(c.refl o).stale && (c.refl o).lastFresh + 10 * ms ≤ c.now)
    (fun c => (c.setRefl o { c.refl o with stale := true, goodSince := none }).refreshStale)

/-- NETSTOP_N has been low for the filter (R171): an assertion, and the 10 s of a release start again. -/
def Core.netAssert (c : Core) : Core :=
  let act := c.ent 0x3103 1
  let c1 := (((c.setEnt 0x3103 3 1).count 0x3103 4 1).setEntBit 0x3100 0 1 true).emit 35 0x070C (d8 0xFF ++ d8 act)
  let c2 := { c1 with guard := { c1.guard with netAt := c1.now, netStand := c1.guard.netStand || act = 0 } }
  if act = 1 then c2.guardLatch 0x070C else ((c2.guardNode 4 0x070C 1).nodeYield 0x070C).recompute

/-- NETSTOP_N is taken as high from the tick after an assertion on (DESIGN CHOICE, log 126: no command says when it rises), so
a further low is a new assertion. -/
def execNetstopAssert (s : State) : Out :=
  s.event (fun c => c.awake && (c.ent 0x3103 3 = 0 || c.guard.netAt < c.now)) Core.netAssert

/-- The NETSTOP_N state as read (R171, R182): 1 asserted, then 2 releasing while NETSTOP_N is high and its 10 s run. Without
field supply it counts as low (R362). -/
def Core.netState (c : Core) : Nat :=
  if c.ent 0x3103 3 ≠ 0 && c.ent 0x6121 0 = 1 && c.guard.netAt < c.now then 2 else c.ent 0x3103 3

/-- NETSTOP_N has been high for 10 s (R171); without field supply it counts as low (R362). A STAND's timer stops in ISOLATE
(R173). -/
def execNetstopRelease (s : State) : Out :=
  s.event (fun c => c.ent 0x3103 3 ≠ 0 && c.ent 0x6121 0 = 1 && c.guard.netAt + 10 * second ≤ c.now && !(c.latched && c.guard.netStand))
    (fun c =>
      let c1 := ((c.setEnt 0x3103 3 0).setEntBit 0x3100 0 1 false).emit 35 0x070C (d8 0xFF ++ d8 (c.ent 0x3103 1))
      ({ c1 with guard := { c1.guard with netStand := false } }.guardSend 0xFF 4 0x070C 0).recompute)

/-- The effect of a Line stop command (R172). -/
def Core.lineStop (c : Core) (v address tag : Nat) : Core :=
  let c1 := (((c.setEnt 0x3104 2 v).setEnt 0x3104 3 address).setEnt 0x3104 4 tag).setEntBit 0x3100 0 2 (v ≠ 0)
  let c2 := c1.emit 35 0x070D (d8 0xFF ++ d8 v ++ d16 address ++ d16 tag)
  let since := if v ≠ 0 then none else if c.ent 0x3104 2 = 0 && c.guard.lineClear.isSome then c.guard.lineClear else some c.now
  let c3 := { c2 with guard := { c2.guard with lineClear := since } }
  if v = 0 then (c3.guardSend 0xFF 4 0x070D 0).recompute
  else if v = 1 then ((c3.guardNode 4 0x070D 1).nodeYield 0x070D).recompute
  else c3.guardLatch 0x070D

def lineStopAct (o : Origin) (v : Nat) : Act := coreAct (fun c =>
  if 2 < v then (0x0301, c) else (0, c.lineStop v (originAddress o) o.tag.toNat))

def execLineStopRelease (o : Origin) (s : State) : Out := .next (s.serveWrite o 0x3104 1 (d8 0) (lineStopAct o 0))
def execLineStopStand (o : Origin) (s : State) : Out := .next (s.serveWrite o 0x3104 1 (d8 1) (lineStopAct o 1))
def execLineStopIsolate (o : Origin) (s : State) : Out := .next (s.serveWrite o 0x3104 1 (d8 2) (lineStopAct o 2))

/-- Whether the cause of the latch is clear (R43, R174): NETSTOP_N has been high for 10 s, counted from the start at the
earliest; 0x3104.01 has been written 0 since the start and 10 s have passed; any other cause counts as clear. -/
def Core.causeClear (c : Core) : Bool :=
  match c.guard.latchCause with
  | 0x070C => c.ent 0x3103 3 = 0 && c.ent 0x6121 0 = 1 && c.guard.netAt + 10 * second ≤ c.now
  | 0x070D => c.ent 0x3104 2 = 0 && (match c.guard.lineClear with | some t => decide (t + 10 * second ≤ c.now) | none => false)
  | _ => true

/-- A deadline `x` of a timer of length `span` after a stop from `t` to `now` (R173): it keeps the time it had remaining at the
stop, or its whole length where it began during the stop. -/
def resumed (t now span x : Nat) : Nat := x + (now - max t (x - span))

/-- The Guard's timers go on after a qualified restart from where ISOLATE stopped them (R173). -/
def Core.resumeGuard (c : Core) : Core :=
  match c.guard.isolateSince with
  | none => c
  | some t =>
    let move := fun (span : Nat) (x : Option Nat) => x.map (resumed t c.now span)
    let from_ := fun (x : Option Nat) => x.map (fun b => b + (c.now - max t b))
    let c1 := c.each allPaths (fun c p => c.modGuardPath p (fun g => { g with
      oscLift := move second g.oscLift, oobLift := move second g.oobLift }))
    let c2 := c1.each (List.range 8) (fun c n =>
      let r := c.rfin n
      (c.setRfin n { r with releaseAt := move (c.ent 0x3120 3 * ms) r.releaseAt }).setRefl n
        { c.refl n with liftAt := move second (c.refl n).liftAt, goodSince := from_ (c.refl n).goodSince })
    { c2 with guard := { c2.guard with
      isolateSince := none, retryAt := move (60 * second) c2.guard.retryAt
      netAt := c2.guard.netAt + (if c2.guard.netStand then c.now - max t c2.guard.netAt else 0) } }

/-- What the Guard's entries read, where time alone changes them. -/
def Core.guardRead (c : Core) (i sub : Nat) : Option Nat :=
  let k := canon i
  if k.1 = 0x2020 && sub = 5 then some (min 3 (within60 (c.path k.2).guard.decisions c.now (60 * second)).length)
  else if i = 0x3103 && sub = 3 then some c.netState
  else if k.1 = 0x2023 && sub = 7 then some (min 3 (within60 (c.path k.2).guard.floorMutes c.now (3600 * second)).length)
  else none

end Sys2Proof.Machine
end

