-- ==== Sys2Proof/Machine/Measure.lean ====
section
/-! DEFINITION. Express and Stopping measurement, composite levels and captures (R117 to R134). -/

namespace Sys2Proof.Machine

/-- The offset of a point's Express and Stopping entries. -/
def exOff : Point → Nat
  | .input => 0x11
  | .output => 0x12
def stOff : Point → Nat
  | .input => 0x13
  | .output => 0x14

def PathSt.ex (s : PathSt) : Point → Power
  | .input => s.exIn
  | .output => s.exOut
def PathSt.setEx (s : PathSt) (pt : Point) (w : Power) : PathSt :=
  match pt with | .input => { s with exIn := w } | .output => { s with exOut := w }
def PathSt.st (s : PathSt) : Point → Power
  | .input => s.stIn
  | .output => s.stOut
def PathSt.setSt (s : PathSt) (pt : Point) (w : Power) : PathSt :=
  match pt with | .input => { s with stIn := w } | .output => { s with stOut := w }

/-- The length of an Express window, and of the Stopping interval in force, in ticks (R119, R122). -/
def Cfg.exLen (g : Cfg) (p : Nat) : Nat := 64 * tsOf (g.rate p)
def Core.stLen (c : Core) (p : Nat) : Nat := (c.path p).stLen * ms

/-- Silence: −200.00 dBFS. -/
def silence : Int := -20000

/-- The level of a sum of powers over `n` samples (R118, R122, R125). -/
def levelOf (sum n : Nat) : Int := if sum = 0 then silence else cdbLog10 sum (n * 2 ^ 46)

/-- rho × 65,535 from a window's sums (R145): 0 where the reference at the tap's delay is below the floor over the window's 64
samples. The manual states no rounding. -/
def rhoOf (k : Canceller) (floor : Int) : Nat :=
  let s := power (k.rhoI, k.rhoQ)
  let d := k.rhoE * k.rhoR
  if d = 0 || !atFloor k.rhoR 64 floor then 0
  else
    let v : Nat := searchUp (fun v => v * v * d ≤ 4294836225 * s) 16 0
    let exact : Bool := v * v * d == 4294836225 * s
    if exact then v else min 65535 (v + Config.roundUp (s : Int) d % 2)

/-- Writes a window's result (R118 to R121): level, number, maximum, count of windows not reported, flags. -/
def Core.exReport (c : Core) (p : Nat) (pt : Point) (number flags : Nat) (level : Option Int) : Core :=
  let i := pIdx p (exOff pt)
  let c1 := ((c.setCdb i 1 level).setEnt i 2 number).setEnt i 5 flags
  match level with
  | none => c1.count i 4 1
  | some e => if c1.ent i 3 = noCdb || c1.cdb i 3 < e then c1.setCdb i 3 (some e) else c1

/-- A capture's trigger on an Express level (R129): the first sample of the window. -/
def Core.exTrigger (c : Core) (p : Nat) (pt : Point) (start : Nat) (level : Int) : Core :=
  c.each [0, 1, 2, 3] (fun c n =>
    let i := 0x2A10 + n
    let here := c.ent i 1 = (if pt = .input then 0x100 else 0x200) + p && (c.ent i 9 = 1 || c.ent i 9 = 2)
    let met := (c.ent i 4 = 2 && c.cdb i 6 ≤ level) || (c.ent i 4 = 3 && level ≤ c.cdb i 6)
    if here && met && (c.capture n).fired.isNone then c.setCapture n { c.capture n with fired := some start } else c)

/-- The number of the Express window a birth tick falls in, and of the Stopping interval. -/
def Core.exNumber (c : Core) (p b : Nat) : Nat := b / c.cfg.exLen p % 2 ^ 32
def Core.stNumber (c : Core) (p b : Nat) : Nat := b / c.stLen p % 2 ^ 32

/-- The full starting tick of the latest Express window of a number. -/
def Core.exStart (c : Core) (p number : Nat) : Nat :=
  let q := c.clock / c.cfg.exLen p
  (q - (q + 2 ^ 32 - number % 2 ^ 32) % 2 ^ 32) * c.cfg.exLen p

/-- The sums whose readings R118 and R121 state: 1, tones of amplitude 2^22 and 2^23, and the largest. -/
def statedSums : List Nat := [1, 2 ^ 50, 2 ^ 52, 2 ^ 53]

/-- An Express window ends at a point (R118 to R121). `extra` adds flags, for a window that is abandoned. The logarithm is
exact to ±0.01 dB: an open value in that bound, but where the manual states the reading. -/
def Core.exEnd (c : Core) (p : Nat) (pt : Point) (number extra : Nat) : Core :=
  let s := c.path p
  let w := s.ex pt
  let flags := Nat.lor (flagMask [(0, bit w.flags 0), (1, bit w.flags 1), (2, bit w.flags 2 || !s.computing), (3, bit w.flags 3),
    (4, bit w.flags 4)]) extra
  let reported := Nat.land flags 0x17 = 0 && w.count = 64
  let c0 := c.modPath p (fun s =>
    let s1 := s.setEx pt Power.zero
    match pt with
    | .input => { s1 with canc := { s1.canc with rhoI := 0, rhoQ := 0, rhoE := 0, rhoR := 0 } }
    | .output => s1)
  let d := if statedSums.contains w.sum then (0, c0) else c0.drawIn (-1) 1
  let level := if !reported then none else if w.sum = 0 then some silence else some (clampI (-15654) 301 (levelOf w.sum 64 + d.1))
  let c1 := (if level.isSome then d.2 else c0).exReport p pt number flags level
  let c2 := match level with | some e => c1.exTrigger p pt (c.exStart p number) e | none => c1
  match pt with
  | .output => c2
  | .input =>
    let rho := if reported then rhoOf s.canc (c.cdb (pIdx p 0x19) 3) else 0
    (c2.setPe p 0x1A 7 rho).guardExpress p number level flags rho

/-- Whether an Express window has ended: 64 samples are counted, or the path computes nothing and the window's last tick
has passed. -/
def Core.exDue (c : Core) (p : Nat) (pt : Point) : Bool :=
  let s := c.path p
  c.awake && c.cfg.configured p && (64 ≤ (s.ex pt).count || (!s.computing && c.clock % c.cfg.exLen p = 0))

def execExpressWindowEnd (p : Fin 32) (pt : Point) (s : State) : Out :=
  s.event (fun c => c.exDue p pt) (fun c =>
    let n := match ((c.path p).ex pt).window with
      | some n => n
      | none => c.exNumber p (c.clock + 2 ^ 64 - c.cfg.exLen p)
    c.exEnd p pt n 0)

/-- Writes an interval's result (R122, R123) and hands it to the Guard. -/
def Core.stEnd (c : Core) (p : Nat) (pt : Point) (number : Nat) (abandoned : Bool) : Core :=
  let s := c.path p
  let w := s.st pt
  let short := 1024 ≤ w.count && w.count < 16384
  let flags := flagMask [(0, bit w.flags 0), (1, short), (2, bit w.flags 2), (3, bit w.flags 3)]
  let reported := !abandoned && 1024 ≤ w.count && Nat.land w.flags 0x0D = 0
  let level := if !reported then none
    else some (if w.sum = 0 then silence else max (-19999) (levelOf w.sum w.count))
  let i := pIdx p (stOff pt)
  -- while Stopping is suspended, the next interval is too (R126)
  let c0 := c.modPath p (fun s => s.setSt pt { Power.zero with flags := if c.entBit 0x2A04 0 0 then 8 else 0 })
  let c1 := (((c0.setCdb i 1 level).setEnt i 2 number).setEnt i 3 w.count).setEnt i 5 flags
  match level, pt with
  | none, _ => c1.count i 4 1
  | some e, .input => c1.modGuardPath p (fun g => { g with stopping := some (e, c.now) })
  | some e, .output => c1.noiseInterval p e

/-- Whether the Stopping interval at hand has ended: its last sample has passed the point, or no sample comes and its last
tick has passed. -/
def Core.stDue (c : Core) (p : Nat) (pt : Point) : Bool :=
  let s := c.path p
  let w := s.st pt
  let w_ := if pt = .output && c.cfg (pIdx p 0x0A) 3 = 0 then c.cfg.whole p else 0
  let idle := !s.computing || bit w.flags 3
  let ended := match w.window with
    | some n => (match (s.delay.drop w_).head? with
        | some x => s.computing && c.stNumber p (c.born x.birth + tsOf (c.cfg.rate p)) ≠ n
        | none => false) || (idle && c.stNumber p c.clock ≠ n)
    | none => idle && c.clock % c.stLen p = 0
  c.awake && c.cfg.configured p && ended

def execStoppingIntervalEnd (p : Fin 32) (pt : Point) (s : State) : Out :=
  s.event (fun c => c.stDue p pt) (fun c =>
    let n := match ((c.path p).st pt).window with
      | some n => n
      | none => c.stNumber p (c.clock + 2 ^ 64 - c.stLen p)
    c.stEnd p pt n false)

/-- A write of the interval length (R122): the length in force changes nothing; another abandons the interval in progress
and acts from the next boundary of the new length. -/
def Core.stoppingWrite (c : Core) (p v : Nat) : Core :=
  if c.pe p 0x10 1 = v then c
  else
    let c1 := c.setPe p 0x10 1 v
    let c2 := [Point.input, Point.output].foldl (fun c pt =>
      match ((c.path p).st pt).window with
      | some n => c.stEnd p pt n true
      | none => if c.cfg.configured p && !bit ((c.path p).st pt).flags 4 then c.stEnd p pt (c.stNumber p c.clock) true else c) c1
    let wait : Power := { Power.zero with flags := 16 }
    c2.modPath p (fun s => { s with stLen := v, stIn := wait, stOut := wait })
def stoppingWriteAct (p v : Nat) : Act := liveAct (pIdx p 0x10) 1 v (fun c => c.stoppingWrite p v)

def execStoppingIntervalWrite (o : Origin) (p : Fin 32) (v : Half) (s : State) : Out :=
  .next (s.serveWrite o (pIdx p 0x10) 1 (d16 v.toNat) (stoppingWriteAct p v.toNat))

/-- A sample passes a point: whether it counts as gated in (R120). -/
def Core.gatedIn (c : Core) (p : Nat) (x : Sample) : Bool :=
  !c.cfg.isTdd p || c.pe p 0x10 2 ≠ 1 || c.inWindow p (c.born x.birth)

/-- A sample joins an Express window. What marked the window before its first sample (a path that began to compute, a clock
step) does not mark one that starts with its own first sample. -/
def Core.exSample (c : Core) (p : Nat) (pt : Point) (x : Sample) (inside : Bool) : Core :=
  let b := c.born x.birth
  let n := c.exNumber p b
  let c1 := match ((c.path p).ex pt).window with
    | some m => if m = n then c else c.exEnd p pt m 0
    | none => c
  c1.modPath p (fun s =>
    let w := s.ex pt
    let old := if w.window.isNone && b % c.cfg.exLen p < tsOf (c.cfg.rate p) then 0 else w.flags
    s.setEx pt ⟨w.sum + power (x.i, x.q), w.count + 1,
      setBit (setBit old 0 (bit old 0 || !x.valid)) 1 (bit old 1 || !inside), some n⟩)

/-- Marks the Express output window at hand: the gain or the ramp weight changed with its newest sample (R120). -/
def Core.stepAt (c : Core) (p : Nat) (moved : Bool) : Core :=
  if moved then c.modPath p (fun s => { s with exOut := { s.exOut with flags := setBit s.exOut.flags 3 true } }) else c

/-- A sample joins a Stopping interval (R122, R123). After a change of length, which flag bit 4 of an empty interval marks, or
a suspension (R126), samples wait for the next boundary. -/
def Core.stSample (c : Core) (p : Nat) (pt : Point) (x : Sample) (inside : Bool) : Core :=
  if c.entBit 0x2A04 0 0 then c
  else
    let b := c.born x.birth
    let n := c.stNumber p b
    let starts := b % c.stLen p < tsOf (c.cfg.rate p)
    let w0 := (c.path p).st pt
    let c1 := match w0.window with
      | some m => if m = n then c else c.stEnd p pt m false
      | none => if bit w0.flags 3 && starts then c.stEnd p pt ((n + 2 ^ 32 - 1) % 2 ^ 32) false else c
    let w := (c1.path p).st pt
    if w.window.isNone && !starts && (bit w.flags 4 || bit w.flags 3) then c1
    else
      let old := if w.window.isNone && (starts || bit w.flags 4) then 0 else w.flags
      let flags := setBit old 0 (bit old 0 || !x.valid)
      c1.modPath p (fun s => s.setSt pt ⟨w.sum + (if inside then power (x.i, x.q) else 0),
        w.count + (if inside then 1 else 0), flags, some n⟩)

/-- A station clock step abandons the Express windows in progress, that of a path which computes nothing among them, and marks
the Stopping intervals (R119, R123). What remains of the window that the step lands in holds the step too. -/
def Core.stepMeasure (c : Core) : Core :=
  c.each allPaths (fun c p =>
    if !c.cfg.configured p then c
    else
      let c1 := [Point.input, Point.output].foldl (fun c pt =>
        (c.exEnd p pt ((((c.path p).ex pt).window).getD (c.exNumber p c.clock)) 16).modPath p (fun s =>
          s.setEx pt { Power.zero with flags := 16 })) c
      c1.modPath p (fun s =>
        let mark := fun (w : Power) => { w with flags := setBit w.flags 2 true }
        let busy := s.canc.window
        { s with stIn := mark s.stIn, stOut := mark s.stOut,
                 canc := { s.canc with window := if busy.window.isNone then busy else mark busy } }))

/-- The composite level of what an RFOUT carried (R125). -/
def compositeLevel (t : Tab Power) : Int :=
  let l := t.filter (fun e => e.2.count ≠ 0)
  let f := l.foldl (fun (a : Nat × Nat) e => (a.1 * (e.2.count * 2 ^ 46) + e.2.sum * a.2, a.2 * (e.2.count * 2 ^ 46))) (0, 1)
  if f.1 = 0 then silence else cdbLog10 f.1 f.2

/-- A composite window ends (R125); in SHUNT a level above the probe limit mutes every path of the RFOUT (R27). -/
def Core.compositeEnd (c : Core) (n : Nat) : Core :=
  let v := compositeLevel (c.sink n).composite
  let c1 := (c.setSink n { c.sink n with composite := [] }).setCdb 0x2A00 (n + 1) (some v)
  let c2 := if c1.ent 0x2A01 (n + 1) = noCdb || c1.cdb 0x2A01 (n + 1) < v then c1.setCdb 0x2A01 (n + 1) (some v) else c1
  let c3 := c2.setEnt 0x2A03 0 ((c.clock + 2 ^ 64 - 1024) % 2 ^ 64 / 1024 % 2 ^ 32)
  if c.mode = mShunt && c.cdb 0x2802 (n + 1) - 3000 < v then
    -- the mute ends a sweep as a mode's mute does (R151)
    c3.each (c3.cfg.boundTo n) (fun c p => ((c.endSweep p 6).modGuardPath p (fun g => { g with shuntMute := true })).refreshPath p)
  else c3

def execCompositeWindowEnd (n : Fin 8) (s : State) : Out :=
  s.event (fun c => c.awake && c.clock % 1024 = 0) (fun c => c.compositeEnd n)

/-- Resets of maxima and minima by a command of value 1. -/
def resetAct (v : Nat) (f : Core → Core) : Act := coreAct (fun c => if v = 1 then (0, f c) else (0x0301, c))
def maximaAct (p v : Nat) : Act := resetAct v (fun c => (c.setPe p 0x11 3 noCdb).setPe p 0x12 3 noCdb)
def compositeMaximaAct (v : Nat) : Act := resetAct v (fun c => c.each (List.range 8) (fun c n => c.setEnt 0x2A01 (n + 1) noCdb))
def lifetimeAct (v : Nat) : Act := resetAct v (fun c => c.each allPaths (fun c p =>
  (c.setEnt 0x2881 (p + 1) 0x8000).modPath p (fun s => { s with lifeSlack := none })))

def execMaximaReset (o : Origin) (p : Fin 32) (v : Byte) (s : State) : Out :=
  .next (s.serveWrite o (pIdx p 0x10) 3 (d8 v.toNat) (maximaAct p v.toNat))
def execCompositeMaximaReset (o : Origin) (v : Byte) (s : State) : Out :=
  .next (s.serveWrite o 0x2A02 0 (d8 v.toNat) (compositeMaximaAct v.toNat))
def execLifetimeMinimumReset (o : Origin) (v : Byte) (s : State) : Out :=
  .next (s.serveWrite o 0x2886 0 (d8 v.toNat) (lifetimeAct v.toNat))

/-- The local source of a capture's records (R131). -/
def Core.captureSource (c : Core) (n : Nat) : Nat :=
  let e := c.ent (0x2A10 + n) 1
  if e / 256 = 3 then 35 else 2 + e % 256

/-- A capture stores samples: states 1, 2 and 3. -/
def Core.capturing (c : Core) (n : Nat) : Bool := 1 ≤ c.ent (0x2A10 + n) 9 && c.ent (0x2A10 + n) 9 ≤ 3

/-- The ticks per sample of a capture. -/
def Core.captureTs (c : Core) (n : Nat) : Nat :=
  let e := c.ent (0x2A10 + n) 1
  if e / 256 = 3 then tsOf (c.ent (0x2A10 + n) 3) else tsOf (c.cfg.rate (e % 256))

/-- The birth tick of sample 0, and the samples marked before arm (R128, R130). -/
def Core.captureOrigin (c : Core) (n : Nat) : Core :=
  let i := 0x2A10 + n
  let s := c.capture n
  let first := match s.stored.getLast? with | some x => x.1 | none => 0
  (c.setEnt i 11 ((first + 2 ^ 64 - s.before * c.captureTs n) % 2 ^ 64)).setEnt i 12 s.before

/-- Ends a capture early, in state 5 or 6 (R126, R130): record 0x0503. -/
def Core.stopCapture (c : Core) (n state : Nat) : Core :=
  if !c.capturing n then c
  else ((c.setEnt (0x2A10 + n) 9 state).captureOrigin n).emit (c.captureSource n) 0x0503
    (d8 n ++ d8 state ++ d32 (c.capture n).stored.length)

/-- The tick from which a sample is a buffer's trigger sample, where that is known (R129). -/
def Core.triggerFrom (c : Core) (n : Nat) : Option Nat :=
  let i := 0x2A10 + n
  match c.ent i 4 with
  | 0 => ((c.capture n).stored.getLast?).map Prod.fst
  | 1 => some (c.ent i 5)
  | 5 =>
    let j := 0x2A10 + (n + 1) % 4
    if c.ent j 9 = 3 || c.ent j 9 = 4 then some (c.ent j 10) else none
  | _ => (c.capture n).fired

/-- The trigger sample is stored (R129, R130): state 3 and record 0x0501. -/
def Core.captureTrigger (c : Core) (n : Nat) : Core :=
  let i := 0x2A10 + n
  let s := c.capture n
  match c.triggerFrom n with
  | none => c
  | some t =>
    let after := s.stored.takeWhile (fun x => atOrBefore t x.1)
    match after.getLast? with
    | none => c
    | some x =>
      let pre := c.ent i 7
      let older := (s.stored.drop after.length).take pre
      let kept := after.take (after.length - 1) ++ [(x.1, x.2.1, setBit x.2.2 1 true)] ++ older
      let c1 := c.setCapture n { s with stored := kept, afterTrigger := after.length - 1, before := pre - older.length }
      (((c1.setEnt i 9 3).setEnt i 10 x.1).captureOrigin n).emit (c1.captureSource n) 0x0501
        (d8 n ++ d16 (c.ent i 1) ++ d32 x.1)

/-- Whether a buffer in state 3 holds its last sample. -/
def Core.captureFull (c : Core) (n : Nat) : Bool :=
  c.ent (0x2A10 + n) 9 = 3 && 65536 ≤ c.ent (0x2A10 + n) 7 + 1 + (c.capture n).afterTrigger

/-- A sample reaches a buffer (R128, R130). While it waits, the buffer keeps the samples of the Express window whose level may
still make the first of them its trigger sample. -/
def Core.captureSample (c : Core) (n : Nat) (x : Sample) (inside : Bool) : Core :=
  let i := 0x2A10 + n
  let s := c.capture n
  if !c.capturing n || c.captureFull n then c
  else
    let f := (if x.valid then 1 else 0) + (if inside then 0 else 4)
    if c.ent i 9 = 3 then c.setCapture n { s with stored := (c.born x.birth, x, f) :: s.stored, afterTrigger := s.afterTrigger + 1 }
    else
      let c1 := c.setCapture n { s with stored := ((c.born x.birth, x, f) :: s.stored).take (65536 + 128) }
      let c2 := if c1.ent i 9 = 1 && c1.ent i 7 ≤ (c1.capture n).stored.length then c1.setEnt i 9 2 else c1
      c2.captureTrigger n

/-- A sample passes a point of a path: both estimators and the captures there. -/
def Core.passPoint (c : Core) (p : Nat) (pt : Point) (x : Sample) : Core :=
  let inside := c.gatedIn p x
  let c1 := (c.exSample p pt x inside).stSample p pt x inside
  c1.each [0, 1, 2, 3] (fun c n =>
    if c.ent (0x2A10 + n) 1 = (if pt = .input then 0x100 else 0x200) + p then c.captureSample n x inside else c)

def execCaptureComplete (n : Fin 4) (s : State) : Out :=
  s.event (fun c => c.captureFull n) (fun c =>
    let bad := ((c.capture n).stored.filter (fun x => !x.2.1.valid)).length + (c.capture n).before
    (c.setEnt (0x2A10 + n) 9 4).emit (c.captureSource n) 0x0502 (d8 n ++ d32 bad))

/-- Whether a capture's point can be used (R130, result 2). -/
def Core.pointUsable (c : Core) (n : Nat) : Bool :=
  let i := 0x2A10 + n
  let e := c.ent i 1
  let trig := c.ent i 4
  let other := trig ≠ 5 || c.ent (0x2A10 + (n + 1) % 4) 9 ≠ 0
  match e / 256 with
  | 1 | 2 => e % 256 < 32 && c.cfg.configured (e % 256) && other
  | 3 => e % 256 < 8 && c.ent 0x2800 (e % 256 + 1) = 3 && trig ≠ 2 && trig ≠ 3 && other &&
      freqOk ((c.ent i 2 : Int) * 10000) rxBoundary (c.ent i 3)
  | _ => false

/-- A write to subindex 08 of a capture (R130): 1 arms, 2 aborts. -/
def captureAct (n v : Nat) : Act := coreAct (fun c =>
  let i := 0x2A10 + n
  if v = 1 then
    if c.capturing n then (0x0205, c.setEnt i 8 1)
    else if c.entBit 0x2A04 0 1 then (0x0204, c.setEnt i 8 3)
    else if !c.pointUsable n then (0x0204, c.setEnt i 8 2)
    else (0, ((c.setEnt i 8 0).setEnt i 9 (if c.ent i 7 = 0 then 2 else 1)).setCapture n { CaptureSt.init with need := 8 })
  else if v = 2 then (0, (c.setEnt i 8 0).stopCapture n 5)
  else (0x0301, c))

def execCaptureArm (o : Origin) (n : Fin 4) (s : State) : Out :=
  .next (s.serveWrite o (0x2A10 + n) 8 (d8 1) (captureAct n 1))
def execCaptureAbort (o : Origin) (n : Fin 4) (s : State) : Out :=
  .next (s.serveWrite o (0x2A10 + n) 8 (d8 2) (captureAct n 2))

/-- A commit aborts the capture of a path or monitor RFIN that it removes (R130). -/
def Core.captureCommit (c : Core) : Core :=
  c.each [0, 1, 2, 3] (fun c n =>
    let e := c.ent (0x2A10 + n) 1
    let gone := if e / 256 = 3 then c.ent 0x2800 (e % 256 + 1) ≠ 3 else !c.cfg.configured (e % 256)
    if gone then c.stopCapture n 5 else c)

/-- One stored sample in its 8 bytes (R128). -/
def sampleBytes (x : Sample × Nat) : List Byte :=
  leBytes 3 (rawOf 24 x.1.i) ++ leBytes 3 (rawOf 24 x.1.q) ++ d8 x.2 ++ d8 0

/-- Block `b` of a capture (R132): the samples before arm, the stored ones in capture order, and zeros for slots never
filled. `none` while the capture runs or never ran. -/
def Core.captureBlock (c : Core) (n b : Nat) : Option (List Byte) :=
  let st := c.ent (0x2A10 + n) 9
  if st < 4 then none
  else
    let s := c.capture n
    let blank := leBytes 6 0 ++ d8 8 ++ d8 0
    let ordered := s.stored.reverse
    some ((List.range 512).flatMap (fun k =>
      let j := 512 * b + k
      if j < s.before then blank
      else match (ordered.drop (j - s.before)).head? with
        | some x => sampleBytes x.2
        | none => leBytes 8 0))

end Sys2Proof.Machine
end

