-- ==== Sys2Proof/Machine/PathOps.lean ====
section
/-! DEFINITION. What other parts do to paths, captures and measurement: synchronising resets, shedding, the throttle's
freeze and suspension (R104 to R106, R126, R130, R141, R344, R346). -/

namespace Sys2Proof.Machine

/-- Brings P+0x09.01 up to date: the samples that remain before the path's output is valid. -/
def Core.refreshNeed (c : Core) (p : Nat) : Core :=
  let s := c.path p
  let span := c.cfg.whole p + c.cfg.fSpan p
  let left := fun (line : List Sample) => span - min span (line.takeWhile Sample.valid).length
  let behind := c.cfg (pIdx p 0x0A) 3 = 0
  -- a stage in front of the selection spoils what follows it until its own line is valid (R110)
  let front := if !behind && left s.front ≠ 0 then left s.front + c.cfg.settle p else 0
  let n := max front (s.needDec + s.needMix + s.needSec)
  let now := max s.needPhase (n + (if !behind then 0 else if n ≠ 0 then span else left s.delay))
  let pending := s.resets.map (fun r => c.cfg.resetCount p r.2 + (if behind && r.2 ≠ 9 then c.cfg.whole p else 0))
  c.setPe p 9 1 (if !s.computing then 0xFFFF else (pending.foldl max now))

/-- A line cleared to zero: its places keep their birth ticks. -/
def clearLine (l : List Sample) : List Sample := l.map (fun x => { x with i := 0, q := 0, valid := false })

/-- Clears the stages a reset of this cause names (R105). -/
def PathSt.clear (g : Cfg) (p cause : Nat) (s : PathSt) : PathSt :=
  let dec := fun (s : PathSt) => { s with cic := Cic.zero, needDec := if g.offAir p then 5 else 0, needMix := 0 }
  let lines := fun (s : PathSt) => { s with
    delay := clearLine s.delay, second := clearLine s.second, front := clearLine s.front }
  let sec := fun (s : PathSt) => { s with sects := [], needSec := g.settle p, needPhase := 0 }
  let tx := fun (s : PathSt) => { s with image := [], interp := Cic.zero, needImage := 12, needInterp := 5 }
  match cause with
  | 2 => { sec s with sects := if g.offAir p then s.sects.take 1 else [] }
  | 3 => lines (sec (dec s))
  | 7 => tx s
  | 8 => { s with needMix := if g.offAir p then 5 else 0, needSec := g.settle p, needPhase := 0 }
  | 9 => { s with needPhase := max s.needPhase 4 }
  | _ => tx (lines (sec (dec s)))

/-- Orders a synchronising reset of a path (R105): counted and recorded at its tick; the stages clear at the first sample
born on or after it. A path that the throttle ladder has shed stays stopped (R105, cause 4). -/
def Core.orderReset (c : Core) (p cause tick : Nat) : Core :=
  if !c.cfg.configured p then c
  else
    let c1 := ((c.count (pIdx p 9) 3 1).setPe p 9 4 cause).emit (2 + p) 0x0403 (d8 cause)
    ((c1.modPath p (fun s => { s with
      resets := s.resets ++ [(tick, cause)]
      computing := s.computing || !c.entBit 0x6005 0 p
      -- the windows in which computing begins lack samples (R120)
      exIn := if s.computing then s.exIn else { s.exIn with flags := setBit s.exIn.flags 2 true }
      exOut := if s.computing then s.exOut else { s.exOut with flags := setBit s.exOut.flags 2 true } })).refreshNeed
        p).refreshPath p

/-- Stops a path's computation: its sheds, its removal. -/
def Core.stopPath (c : Core) (p : Nat) : Core :=
  (c.modPath p (fun s => { s with
    computing := false, resets := [], owedFrom := none, missing := [], gap := false })).refreshNeed p

/-- Suspends Stopping and captures, or lets them go on (R126): every Stopping interval in progress is abandoned, and each
until the ladder leaves the step is not reported. -/
def Core.suspend (c : Core) (on : Bool) : Core :=
  let c1 := (c.setEntBit 0x2A04 0 0 on).setEntBit 0x2A04 0 1 on
  if on then
    let stop := fun (c : Core) (p : Nat) (pt : Point) =>
      let w := (c.path p).st pt
      (c.modPath p (fun s => s.setSt pt { w with flags := setBit w.flags 3 true })).stEnd p pt
        (w.window.getD (c.stNumber p c.clock)) true
    (c1.each (allPaths.filter c.cfg.configured) (fun c p => stop (stop c p .input) p .output)).each
      [0, 1, 2, 3] (fun c n => c.stopCapture n 6)
  else c1

/-- Freezes every canceller for the throttle, or releases it (R141, R344): one node-wide record, and no sweep goes on. The
manual gives the record's cause no coding: an open value. -/
def Core.throttleFreeze (c : Core) (on : Bool) : Core :=
  let c1 := c.setEntBit 0x3003 0 0 on
  let c2 := if on then c1.each allPaths (fun c p => c.endSweep p 6) else c1
  let r := c2.draw
  ((r.2.emit 34 0x0604 (d8 0xFF ++ d8 (if on then 5 else 1) ++ d8 r.1)).each allPaths Core.markFreeze).each allPaths
    Core.refreshAdapt

/-- The priority of a path, and the order in which the ladder sheds: ascending priority, the higher path first (R84). -/
def Core.priority (c : Core) (p : Nat) : Nat := c.pe p 0 13
def Core.nextShed (c : Core) : Option Nat :=
  let l := allPaths.filter (fun p => c.entBit 0x110A 0 p && c.priority p < c.ent 0x6010 7)
  match (l.map c.priority).min? with
  | none => none
  | some m => (l.filter (fun p => c.priority p = m)).max?

/-- Sheds a path (R346): a requested mute that ends its computation. -/
def Core.shed (c : Core) (p : Nat) : Core :=
  ({ (c.setEntBit 0x6005 0 p true) with therm := { c.therm with shed := p :: c.therm.shed } }).refreshPath p

/-- Restores the path shed last (R346): a synchronising reset with cause 4 at this tick. -/
def Core.restoreShed (c : Core) : Core × Option Nat :=
  match c.therm.shed with
  | [] => (c, none)
  | p :: r =>
    let c1 := { (c.setEntBit 0x6005 0 p false) with therm := { c.therm with shed := r } }
    ((c1.orderReset p 4 c1.clock).refreshPath p, some p)

end Sys2Proof.Machine
end

