-- ==== Sys2Proof/Machine/Canceller.lean ====
section
/-! DEFINITION. The feedback canceller (R135 to R156): reference, taps and adaptation, correlation windows, sweeps, and
what a commit changes. -/

namespace Sys2Proof.Machine

/-- The taps of a path, and the delays of its head (R138, R142). -/
def Cfg.nTaps (g : Cfg) (p : Nat) : Nat := 256 * g.blocks p
def Cfg.k0 (g : Cfg) (p : Nat) : Nat := g (pIdx p 0x18) 2
def Cfg.nHead (g : Cfg) (p : Nat) : Nat := min 32 (g.k0 p)

/-- `n` elements of a list from index `k`, zeros where it ends. -/
def window (l : List (Int × Int)) (k n : Nat) : List (Int × Int) :=
  let w := (l.drop k).take n
  w ++ List.replicate (n - w.length) (0, 0)

/-- The sum of two reference lines, element by element. -/
def addLines : List (Int × Int) → List (Int × Int) → List (Int × Int)
  | [], l => l
  | l, [] => l
  | a :: r, b :: t => (a.1 + b.1, a.2 + b.2) :: addLines r t

/-- Places what left an RFOUT ball, newest first, at its distance in path samples from tick `ball`. -/
def placeRefs (ts ball : Nat) : Nat → List RefSample → List (Int × Int)
  | _, [] => []
  | k, x :: r =>
    let j := ticksFrom x.ball ball / ts
    List.replicate (min (j - k) 20992) (0, 0) ++ (x.i, x.q) :: placeRefs ts ball (j + 1) r

/-- The paths whose contributions make a path's reference (R135); a sweep's reference is its own probe (R152). -/
def Core.refPaths (c : Core) (p o : Nat) : List Nat :=
  if c.pe p 0x18 4 = 0 || (c.path p).canc.phase ≠ 0 then [p]
  else (c.cfg.boundTo o).filter (fun q => c.cfg.rate q = c.cfg.rate p && c.cfg.txFreq q = c.cfg.txFreq p)

/-- The reference r[n], r[n − 1], … for the input sample that reached the RFIN ball on tick `ball`: what left the RFOUT
ball on it or before (R135, R136). -/
def Core.refLine (c : Core) (p ball count : Nat) : List (Int × Int) :=
  match c.cfg.refSink p with
  | none => window [] 0 count
  | some o =>
    let line := fun (q : Nat) =>
      let h := (c.sink o).history.get (fun _ => []) q
      placeRefs (tsOf (c.cfg.rate p)) ball 0 (h.dropWhile (fun x => !atOrBefore x.ball ball))
    window ((c.refPaths p o).foldl (fun acc q => addLines acc ((line q).take count)) []) 0 count

/-- The reference delays a path's taps and correlators span, first the head. -/
def Cfg.refCount (g : Cfg) (p : Nat) : Nat := g.k0 p + g.nTaps p + 256

/-- x × conj(y). -/
def mulConj (x y : Int × Int) : Int × Int := (x.1 * y.1 + x.2 * y.2, x.2 * y.1 - x.1 * y.2)
/-- x × y. -/
def mulC (x y : Int × Int) : Int × Int := (x.1 * y.1 - x.2 * y.2, x.1 * y.2 + x.2 * y.1)
def sumC (l : List (Int × Int)) : Int × Int := l.foldl (fun a b => (a.1 + b.1, a.2 + b.2)) (0, 0)
def sumPower (l : List (Int × Int)) : Nat := (l.map power).sum

/-- The taps as held: all zero until they are set. -/
def Core.taps (c : Core) (p : Nat) : List (Int × Int) := window (c.path p).canc.taps 0 (c.cfg.nTaps p)

/-- yhat[n] (R136): formed exactly and rounded to S24. -/
def yhat (taps refs : List (Int × Int)) : Int × Int :=
  let s := sumC ((taps.zip refs).map (fun e => mulC e.1 e.2))
  (satS 24 (roundShift s.1 30), satS 24 (roundShift s.2 30))

/-- The reference floor as power in 2^-32 of the path's squared scale (R140): 2^78 × 10^(floor / 1,000), rounded down. -/
def floorPower (floor : Int) : Nat :=
  searchUp (fun f => f ^ 1000 * 10 ^ (-floor).toNat ≤ 2 ^ 78000) 78 0

/-- One tap's update (R140), saturated to S32, and its saturations. The manual states no rounding of the quotient. -/
def updateTap (a b : Nat) (den32 : Nat) (h e r : Int × Int) : (Int × Int) × Nat :=
  let g := mulConj e r
  let rail := fun (h x : Int) =>
    -- h - h / 2^b + x 2^(30 - a) / den, with den = den32 / 2^32
    let leak : Nat := if b = 0 then 1 else 2 ^ b
    let num := (h * leak - (if b = 0 then 0 else h)) * ((2 ^ a * den32 : Nat) : Int) + x * ((2 ^ 62 * leak : Nat) : Int)
    openRound num (leak * 2 ^ a * den32)
  let i := rail h.1 g.1
  let q := rail h.2 g.2
  ((satS 32 i, satS 32 q), (if overS 32 i then 1 else 0) + (if overS 32 q then 1 else 0))

/-- Counts saturations of taps and subtraction (R137). -/
def Core.cancSaturate (c : Core) (p n : Nat) : Core :=
  if n = 0 then c else (c.count (pIdx p 0x1A) 11 n).tallyMs 34 0x0609 (d8 p) n

/-- The index of the tap of largest magnitude, the lowest among equals (R145). -/
def peakTap (taps : List (Int × Int)) : Nat :=
  ((taps.zipIdx).foldl (fun (b : Nat × Nat) e => if b.1 < power e.1 then (power e.1, e.2) else b) (0, 0)).2

/-- The window length of a path's correlation in ticks (R142). -/
def Core.corrLen (c : Core) (p : Nat) : Nat := 1024 * 2 ^ (c.pe p 0x19 4) * tsOf (c.cfg.rate p)

/-- The energies of a window over one denominator (R143): e_h, e_w, bias, tail and head energy, and the denominator. -/
structure Energies where
  eh : Nat
  ew : Nat
  bias : Nat
  tail : Nat
  head : Nat
  den : Nat
deriving DecidableEq, Repr

def energies (k : Canceller) (taps : List (Int × Int)) (nHead n : Nat) : Energies :=
  let r := k.refPower
  let nTaps := taps.length
  let all := nTaps + nHead + 256
  let part := fun (l : List (Int × Int)) (share : Nat) =>
    -- n × all × sum |S|² − share × n_all × E × R, over n × all × R²
    n * all * sumPower l - share * all * k.errPower * r
  let span := k.corr
  ⟨sumPower taps * n * r ^ 2 * all, part span all * 2 ^ 60, all * all * k.errPower * r * 2 ^ 60,
    part (span.drop (nHead + nTaps)) 256 * 2 ^ 60, part (span.take nHead) nHead * 2 ^ 60, 2 ^ 60 * n * r ^ 2 * all⟩

/-- 10 log10 of a ratio as a CDB; where the manual gives no logarithm (of 0, or over 0) an open value. -/
def Core.ratioCdb (c : Core) (num den : Nat) : Int × Core :=
  if num = 0 || den = 0 then c.drawIn (-32767) 32767 else (clampI (-32767) 32767 (cdbLog10 num den), c)

/-- I_raw, S_meas and the bound-only flag of a window (R143). -/
def Core.isolation (c : Core) (e : Energies) : Int × Int × Bool × Core :=
  let i := c.ratioCdb e.den (max (e.eh + e.ew) e.bias)
  let s := if e.ew = 0 then 6000 else if e.eh = 0 then 0 else clampI 0 6000 (cdbLog10 e.eh e.ew)
  (i.1, s, decide (e.eh + e.ew < 2 * e.bias), i.2)

/-- One of the ratio flags of R144: its bit, its energy relative to e_h, its record. -/
def Core.ratioFlag (c : Core) (p k sub code energy eh run : Nat) : Core × Nat :=
  let r := if energy = 0 then (silence, c) else c.ratioCdb energy eh
  let c1 := r.2.setCdb (pIdx p 0x1A) sub (some r.1)
  let high := energy ≠ 0 && decide (eh ≤ 100 * energy)
  let low := energy = 0 || decide (energy ^ 10 * 10 ^ 26 < eh ^ 10)
  let was := bit (c.pe p 0x1A 10) k
  let run' := if low then run + 1 else 0
  let now := if was then !(16 ≤ run') else high
  let c2 := c1.setEntBit (pIdx p 0x1A) 10 k now
  (if now = was then c2 else c2.emit 34 code (d8 p ++ d8 (if now then 1 else 0) ++ dS16 r.1), if now then run' else 0)

/-- The end of a correlation window (R142 to R144). -/
def Core.corrEnd (c : Core) (p : Nat) : Core :=
  let k := (c.path p).canc
  let w := k.window
  let valid := w.flags = 0 && w.count * tsOf (c.cfg.rate p) = w.sum &&
    atFloor k.refPower w.count (c.cdb (pIdx p 0x19) 3) && k.refPower ≠ 0
  let c0 := c.modCanc p (fun k => { k with window := Power.zero, corr := [], refPower := 0, errPower := 0 })
  let c1 := (c0.setEntBit (pIdx p 0x1A) 10 0 valid).setEntBit (pIdx p 0x1A) 10 4 (!valid)
  if !valid then c1
  else
    let taps := c.taps p
    let e := energies k taps (c.cfg.nHead p) w.count
    let r := c1.isolation e
    let c2 := ((r.2.2.2.setCdb (pIdx p 0x1A) 1 (some r.1)).setCdb (pIdx p 0x1A) 2 (some r.2.1)).setEntBit (pIdx p 0x1A) 10 3
      r.2.2.1
    let h := c2.ratioCdb e.eh e.den
    let v := (h.2.setCdb (pIdx p 0x1A) 3 (some h.1)).ratioCdb e.ew e.den
    let c3 := v.2.setCdb (pIdx p 0x1A) 4 (some v.1)
    let pk := peakTap taps
    let c4 := (c3.setPe p 0x1A 8 ((c3.cfg.k0 p + pk) * tsOf (c3.cfg.rate p))).setPe p 0x1A 9 (w.window.getD 0)
    let t := c4.ratioFlag p 1 5 0x0602 e.tail e.eh k.starvedRun
    let d := t.1.ratioFlag p 2 6 0x0603 e.head e.eh k.headRun
    d.1.modCanc p (fun k => { k with
      peak := pk, liveHeld := true, starvedRun := t.2, headRun := d.2,
      iHold := if k.frozen then some (k.iHold.getD r.1) else k.iHold,
      sHold := if k.frozen then some (k.sHold.getD r.2.1) else k.sHold })

def execCorrelationWindowEnd (p : Fin 32) (s : State) : Out :=
  s.event (fun c =>
    let w := (c.path p).canc.window
    w.window.isSome && (c.path p).canc.phase = 0 && w.sum ≤ w.count * tsOf (c.cfg.rate p)) (fun c => c.corrEnd p)

/-- Adds one sample's products to the correlation sums. -/
def addCorr : List (Int × Int) → Int × Int → List (Int × Int) → List (Int × Int)
  | _, _, [] => []
  | [], e, r :: t => mulConj e r :: addCorr [] e t
  | a :: s, e, r :: t => let m := mulConj e r; (a.1 + m.1, a.2 + m.2) :: addCorr s e t

/-- A sample joins the correlation window at hand; phase 4 of a sweep is one window of its own (R142, R152). -/
def Core.corrSample (c : Core) (p : Nat) (x : Sample) (e : Int × Int) (refs : List (Int × Int)) : Core :=
  let ts := tsOf (c.cfg.rate p)
  let b := c.born x.birth
  let sweep := (c.path p).canc.phase
  let add := fun (c : Core) => c.modCanc p (fun k => { k with
    corr := addCorr k.corr e (refs.drop (c.cfg.k0 p - c.cfg.nHead p)),
    refPower := k.refPower + power (refs.headD (0, 0)),
    errPower := k.errPower + power e,
    window := { k.window with count := k.window.count + 1, flags := setBit k.window.flags 0 (bit k.window.flags 0 || !x.valid) } })
  if sweep = 4 then add c
  else if sweep ≠ 0 then c
  else
    let w := (c.path p).canc.window
    let c1 := match w.window with
      | some n => if w.sum ≠ 0 && b / w.sum % 2 ^ 32 = n then c else c.corrEnd p
      | none => c
    let len := c1.corrLen p
    let w1 := (c1.path p).canc.window
    if w1.window.isSome && !(b % len < ts && w1.sum ≠ len) then add c1
    else if b % len < ts then
      let start : Power := ⟨len, 0, 0, some (b / len % 2 ^ 32)⟩
      add (c1.modCanc p (fun k => { k with corr := [], refPower := 0, errPower := 0, window := start }))
    else c1

/-- The residual-correlation sums of the Express window (R145), over every sample of it. -/
def Core.rhoSample (c : Core) (p : Nat) (e : Int × Int) (refs : List (Int × Int)) : Core :=
  c.modCanc p (fun k =>
    let r := (refs.drop (c.cfg.k0 p + k.peak)).headD (0, 0)
    let m := mulConj e r
    { k with rhoI := k.rhoI + m.1, rhoQ := k.rhoQ + m.2, rhoE := k.rhoE + power e, rhoR := k.rhoR + power r })

/-- The canceller on one input sample (R136, R140 to R145): adaptation state, taps and sums; answers yhat, which the gain
stage subtracts. `ball` is the tick on which the sample reached its RFIN ball. -/
def Core.cancel (c : Core) (p ball : Nat) (x : Sample) : Core × (Int × Int) :=
  if c.cfg.blocks p = 0 then (c, (0, 0))
  else
    let refs := c.refLine p ball (c.cfg.refCount p)
    let span := (refs.drop (c.cfg.k0 p)).take (c.cfg.nTaps p)
    let taps := c.taps p
    let y := yhat taps span
    let e : Int × Int := (x.i - y.1, x.q - y.2)
    let floor := c.cdb (pIdx p 0x19) 3
    let pr := sumPower span
    let above := atFloor pr (c.cfg.nTaps p) floor
    let paused := !x.valid || !above
    let c1 := (c.setPe p 0x19 7 (if paused then 2 else 1)).refreshAdapt p
    let phase := (c.path p).canc.phase
    let adapts := !paused && (c1.pe p 0x19 7 = 1 || (phase = 3 && c1.pe p 0x19 7 = 6))
    let c2 :=
      if !adapts then c1
      else
        let a := if phase = 3 then 4 else c1.pe p 0x19 1
        let b := if phase = 3 then 0 else c1.pe p 0x19 2
        let den := pr * 2 ^ 32 + c.cfg.nTaps p * floorPower floor
        let u := (taps.zip span).map (fun t => updateTap a b den t.1 e t.2)
        (c1.modCanc p (fun k => { k with taps := u.map Prod.fst })).cancSaturate p (u.map Prod.snd).sum
    let out := if phase = 3 || phase = 4 || phase = 2 then (0, 0) else y
    ((c2.corrSample p x e refs).rhoSample p e refs, out)

/-- Sets the taps to zero (R139, R141, R152) and drops the live estimate (R147). -/
def Core.zeroTaps (c : Core) (p cause : Nat) : Core :=
  (c.modCanc p (fun k => { k with
    taps := [], peak := 0, liveHeld := false, iHold := none, sHold := none, starvedRun := 0, headRun := 0,
    window := Power.zero, corr := [], refPower := 0, errPower := 0 })).emit 34 0x0605 (d8 p ++ d8 cause)

/-- A write to P+0x19.05 (R141): record 0x0604 where the freeze changes. The manual gives its cause no coding: an open
value. -/
def freezeTapsAct (p v : Nat) : Act := coreAct (fun c =>
  if 1 < v then (0x0301, c)
  else if c.pe p 0x19 5 = v then (0, c)
  else
    let c1 := ((c.setPe p 0x19 5 v).markFreeze p).refreshAdapt p
    let r := c1.draw
    (0, r.2.emit 34 0x0604 (d8 p ++ d8 (if v = 1 then 4 else r.2.pe p 0x19 7) ++ d8 r.1)))

def execTapFreeze (o : Origin) (p : Fin 32) (s : State) : Out :=
  .next (s.serveWrite o (pIdx p 0x19) 5 (d8 1) (freezeTapsAct p 1))
def execTapRelease (o : Origin) (p : Fin 32) (s : State) : Out :=
  .next (s.serveWrite o (pIdx p 0x19) 5 (d8 0) (freezeTapsAct p 0))

/-- A write to P+0x19.06 (R141). -/
def tapResetAct (p v : Nat) : Act := coreAct (fun c =>
  if v ≠ 1 then (0x0301, c)
  else if c.entBit 0x110A 0 p then (0x0204, c)
  else (0, c.zeroTaps p 2))

def execTapReset (o : Origin) (p : Fin 32) (v : Byte) (s : State) : Out :=
  .next (s.serveWrite o (pIdx p 0x19) 6 (d8 v.toNat) (tapResetAct p v.toNat))

/-- Why a sweep is refused (R151): the lowest result that applies, 0 none. -/
def Core.sweepRefusal (c : Core) (p : Nat) : Nat :=
  if c.mode ≠ mShunt then 2
  else if !c.cfg.needsCeiling p || c.cfg.blocks p = 0 then 3
  else if !c.clockGate p || !c.sourceGate p || c.pe p 9 1 ≠ 0 then 4
  else if c.ent 0x6004 0 ≠ 0 then 5
  else 0

/-- A write to P+0x1C.01 (R151). -/
def sweepAct (p v : Nat) : Act := coreAct (fun c =>
  if v = 1 then
    if (c.path p).canc.phase ≠ 0 then (0x0205, c)
    else
      let r := c.sweepRefusal p
      if r ≠ 0 then (if r = 2 then 0x0203 else 0x0204, (c.setPe p 0x1C 1 r).emit 34 0x0607 (d8 p ++ d8 r))
      else
        let c1 := (c.setPe p 0x1C 1 1).modCanc p (fun k => { k with
          phase := 1, remaining := 64, window := Power.zero, corr := [], refPower := 0, errPower := 0 })
        let st := c1.pe p 1 1
        (0, (if st = psLive || st = psUp then c1.rampDown p 0 else c1).refreshAdapt p)
  else if v = 2 then (0, c.endSweep p 6)
  else (0x0301, c))

def execSweepStart (o : Origin) (p : Fin 32) (s : State) : Out :=
  .next (s.serveWrite o (pIdx p 0x1C) 1 (d8 1) (sweepAct p 1))
def execSweepAbort (o : Origin) (p : Fin 32) (s : State) : Out :=
  .next (s.serveWrite o (pIdx p 0x1C) 1 (d8 2) (sweepAct p 2))

/-- The length of a sweep phase in path samples (R152). -/
def Cfg.phaseLength (g : Cfg) (p phase : Nat) : Nat :=
  match phase with
  | 1 => 64
  | 2 => 64 + g.settle p
  | 3 => 128 * g.nTaps p
  | 4 => 65536
  | _ => 64

/-- The next state of an x^23 + x^18 + 1 sequence held in 23 bits (R152). -/
def lfsr23 (s : Nat) : Nat := (2 * s + (if bit s 22 != bit s 17 then 1 else 0)) % 2 ^ 23

/-- The probe begins (R152): the manual gives the sequences no start; each starts at an open value other than 0. -/
def Core.startProbe (c : Core) (p : Nat) : Core :=
  let i := c.drawIn 1 8388607
  let q := i.2.drawIn 1 8388607
  q.2.modCanc p (fun k => { k with probeI := i.1.toNat, probeQ := q.1.toNat, probeSects := [] })

/-- The probe's level in 0.01 dB: the rated level of the path's reference sink plus P+0x1C.02 (R152). -/
def Core.probeLevel (c : Core) (p : Nat) : Int :=
  (match c.cfg.refSink p with | some o => c.cdb 0x2802 (o + 1) | none => 0) + c.cdb (pIdx p 0x1C) 2

/-- One sample of the probe before its ramp (R152): a step of each sequence, whose bit gives the sign of its rail, shaped by the
path's own response entry. A mean power of 2^46 is 0.00 dBFS (R118), so an unshaped rail of 2^22.5 has level 0; what the entry
takes is made up by a factor the manual does not give. -/
def Core.probeSample (c : Core) (p : Nat) : Core × (Int × Int) :=
  let k := (c.path p).canc
  let i := lfsr23 k.probeI
  let q := lfsr23 k.probeQ
  let id := c.cfg.response p
  let a := roundShift (scaleBy (gainOf (c.probeLevel p)) 5931642 * (Config.probeMakeup id : Int)) 16
  let rail := fun (s : Nat) => satS 24 (if bit s 0 then a else -a)
  let y := cascade (romCoefs id) k.probeSects (rail i, rail q)
  (c.modCanc p (fun k => { k with probeI := i, probeQ := q, probeSects := y.2.1 }), y.1)

/-- A sweep phase other than the fourth ends (R152). -/
def Core.sweepPhase (c : Core) (p : Nat) : Core :=
  let phase := (c.path p).canc.phase
  if phase = 5 then
    ((c.modCanc p (fun k => { k with phase := 0 })).setPe p 0x1C 1 0).refreshAdapt p
  else
    let c1 := c.modCanc p (fun k => { k with phase := phase + 1, remaining := c.cfg.phaseLength p (phase + 1) })
    if phase = 1 then (c1.zeroTaps p 3).startProbe p
    else if phase = 3 then c1.modCanc p (fun k => { k with window := Power.zero, corr := [], refPower := 0, errPower := 0 })
    else c1

def Core.phaseSpent (c : Core) (p : Nat) : Bool :=
  let k := (c.path p).canc
  k.phase ≠ 0 && k.remaining = 0

def execSweepPhaseEnd (p : Fin 32) (s : State) : Out :=
  s.event (fun c => c.phaseSpent p && (c.path p).canc.phase ≠ 4) (fun c => c.sweepPhase p)

/-- The echo configuration of a path (R139), and its CRC-32 over the bytes this model gives it. -/
def Cfg.echo (g : Cfg) (p : Nat) : List Nat :=
  [g.rate p, g.source p, (match g.refSink p with | some o => o | none => 0xFF), g (pIdx p 0x18) 4, g (pIdx p 0) 8,
    g.rxBinding p, g.txBinding p, g.k0 p, g.blocks p]
def Cfg.echoCrc (g : Cfg) (p : Nat) : Nat := crc32 ((g.echo p).flatMap d32)

/-- A path owes a sweep no longer (R153): 0x3007 and 0x110C, both in persistent state. -/
def Core.sweepPaid (c : Core) (p : Nat) : Core :=
  if !c.entBit 0x3007 0 p then c
  else
    let m := setBit (c.ent 0x3007 0) p false
    let c1 := (c.setEnt 0x3007 0 m)
    let c2 := if m = 0 then c1.setEnt 0x110C 0 0 else c1
    c2.persistUnit [(entKey 0x3007 0, m), (entKey 0x110C 0, c2.ent 0x110C 0)]

/-- A path that a commit makes off-air with an RFOUT sink while sweeps are owed owes one too (R153). -/
def Core.sweepOwed (c : Core) (p : Nat) : Core :=
  let m := setBit (c.ent 0x3007 0) p true
  (c.setEnt 0x3007 0 m).persistUnit [(entKey 0x3007 0, m), (entKey 0x110C 0, c.ent 0x110C 0)]

/-- Phase 4 of a sweep ends (R153): results, store, record. -/
def Core.sweepResult (c : Core) (p : Nat) : Core :=
  let k := (c.path p).canc
  let taps := c.taps p
  let e := energies k taps (c.cfg.nHead p) k.window.count
  let r := c.isolation e
  let c1 := ((r.2.2.2.setCdb (pIdx p 0x1C) 5 (some r.1)).setCdb (pIdx p 0x1C) 6 (some r.2.1)).setPe p 0x1C 8 c.clock
  let c2 := (c1.setPe p 0x1C 7 (if r.2.2.1 then 3 else 1)).setEntBit 0x3006 0 p true
  let w : SweepStore := ⟨c2.pe p 0x1C 5, c2.pe p 0x1C 6, r.2.2.1, c.clock, c.cfg.echoCrc p, taps⟩
  let c3 := { (c2.modCanc p (fun k => { k with
    phase := 5, remaining := 64, snapshot := taps, peak := peakTap taps,
    window := Power.zero, corr := [], refPower := 0, errPower := 0 })) with
    cal := c2.cal ++ [(p, 1 + ceilDiv taps.length 32, some w)] }
  (c3.sweepPaid p).emit 34 0x0606 (d8 p ++ dS16 r.1 ++ dS16 r.2.1 ++ d8 (if r.2.2.1 then 1 else 0))

def execSweepComplete (p : Fin 32) (s : State) : Out :=
  s.event (fun c => c.phaseSpent p && (c.path p).canc.phase = 4) (fun c => c.sweepResult p)

/-- Discards a sweep result (R139): record 0x0608, and its erasure from the region. -/
def Core.dropSweep (c : Core) (p : Nat) : Core :=
  let c1 := c.endSweep p 6
  if !bit (c1.pe p 0x1C 7) 0 then c1
  else
    let c2 := ((((c1.setPe p 0x1C 7 0).setPe p 0x1C 5 noCdb).setPe p 0x1C 6 noCdb).setEntBit 0x3006 0 p false).modCanc p
      (fun k => { k with snapshot := [] })
    { c2 with cal := c2.cal ++ [(p, 1, none)] }.emit 34 0x0608 (d8 p)

/-- Packs the blocks in ascending path number (R138): first blocks, spans, owners and totals. -/
def Core.packBlocks (c : Core) : Core :=
  let g := c.cfg
  let r := allPaths.foldl (fun (a : Core × Nat) p =>
    let n := if g.configured p then g.blocks p else 0
    let c1 := (a.1.setPe p 0x18 6 (if n = 0 then 0xFF else a.2)).setPe p 0x18 5
      (if n = 0 then 0 else (g.k0 p + 256 * n) * tsOf (g.rate p))
    let c2 := c1.each (List.range n) (fun c b => if a.2 + b < 64 then c.setEnt 0x3002 (a.2 + b + 1) p else c)
    (c2, a.2 + n)) (c.each (List.range 64) (fun c b => c.setEnt 0x3002 (b + 1) 0xFF), 0)
  let units := (allPaths.map (fun p => if g.configured p then g.blocks p * unitsOf (g.rate p) else 0)).sum
  (r.1.setEnt 0x3000 0 units).setEnt 0x3001 0 r.2

/-- What a commit does to the canceller (R138, R139, R153), given the configuration before it. -/
def Core.cancCommit (c : Core) (old : Cfg) : Core :=
  let g := c.cfg
  let c1 := c.each allPaths (fun c p =>
    let c1 := if g.echo p = old.echo p then c
      else
        let c0 := c.dropSweep p
        if g.blocks p ≠ 0 || old.blocks p ≠ 0 then c0.zeroTaps p 1 else c0
    -- a load at start-up is no commit: what is owed survives it
    let c2 := if c1.phase ≠ .ready then c1
      else if !g.needsCeiling p then c1.sweepPaid p
      else if c1.ent 0x110C 0 = 1 && !old.needsCeiling p then c1.sweepOwed p else c1
    c2.refreshAdapt p)
  c1.packBlocks

/-- The stored sweep results that the loaded configuration matches (R153). -/
def Core.restoreSweeps (c : Core) (store : Tab (Option SweepStore)) : Core :=
  c.each allPaths (fun c p =>
    match store.get (fun _ => none) p with
    | none => c
    | some w =>
      if c.cfg.needsCeiling p && w.crc = c.cfg.echoCrc p then
        (((((c.setPe p 0x1C 5 w.iSwp).setPe p 0x1C 6 w.sSwp).setPe p 0x1C 7 (if w.bound then 7 else 5)).setPe p 0x1C 8
          w.time).setEntBit 0x3006 0 p true).modCanc p (fun k => { k with taps := w.taps, snapshot := w.taps, peak := peakTap w.taps })
      else c)

/-- The live estimate at a path's going live (R147): dropped after more than 10 s not live. A path that then goes live from the
sweep source has the sweep's snapshot as its taps. -/
def Core.cancGoLive (c : Core) (p : Nat) : Core :=
  let k := (c.path p).canc
  let c1 := if k.notLiveSince + 10 * second < c.now && k.liveHeld then
      c.modCanc p (fun k => { k with liveHeld := false, iHold := none, sHold := none }) else c
  if !(c1.path p).canc.liveHeld && bit (c1.pe p 0x1C 7) 0 then
    c1.modCanc p (fun k => { k with taps := k.snapshot, peak := peakTap k.snapshot })
  else c1

/-- Block `b` of a path's taps (0x3005). -/
def Core.tapBlock (c : Core) (p b : Nat) : List Byte :=
  (window ((c.taps p).drop (256 * b)) 0 256).flatMap (fun t => leBytes 4 (rawOf 32 t.1) ++ leBytes 4 (rawOf 32 t.2))

end Sys2Proof.Machine
end

