-- ==== Sys2Proof/Machine/Clock.lean ====
section
/-! DEFINITION. Reference clocks, synthesisers and station time (R46 to R66). -/

namespace Sys2Proof.Machine

/-- PPS_OUT may stand high: enabled, and in LOCKED or HOLDOVER or emitting in any status (R57). -/
def Core.ppsAllowed (c : Core) : Bool :=
  c.entBit 0x122D 0 0 && (!c.timeUncommon || c.entBit 0x122D 0 1)

/-- The average of the loop's corrections over the last 10 s of LOCKED (R53). -/
def TimeSt.average (t : TimeSt) : Int :=
  if t.loopPast.isEmpty then t.loop else roundDiv t.loopPast.sum t.loopPast.length

/-- Enters a time status with a source in use (R53, R54): record 0x0205 with old and new status and source. In HOLDOVER the loop
keeps its average over the last 10 s of LOCKED. -/
def Core.setTime (c : Core) (status source : Nat) : Core :=
  let old := c.ent 0x1221 0
  if old = status && c.ent 0x1222 0 = source then c
  else
    let c1 := ((c.setEnt 0x1221 0 status).setEnt 0x1222 0 source).emit 1 0x0205 (d8 old ++ d8 status ++ d8 source)
    let c2 := { c1 with time := { c1.time with
      holdoverAt := if status = 3 then some (c1.now + c1.ent 0x1224 0 * second) else none
      loop := if status = 3 && old ≠ 3 then c1.time.average else c1.time.loop
      inPhase := if status = old then c1.time.inPhase else 0
      ppsOut := c1.time.ppsOut && c1.ppsAllowed } }
    c2.followTime

/-- A tick that a clock step of `d` moves with the count. -/
def moveTick (d : Int) (t : Nat) : Nat := wrapClock ((t : Int) + d)

/-- A sample whose birth tick moves with the count. -/
def moveSample (d : Int) (x : Sample) : Sample := { x with birth := x.birth + BitVec.ofInt 16 d }

/-- What a path holds against the count moves with it, so that the samples in flight keep their ages and their places. -/
def PathSt.moveClock (d : Int) (s : PathSt) : PathSt :=
  { s with
    delay := s.delay.map (moveSample d)
    second := s.second.map (moveSample d)
    front := s.front.map (moveSample d)
    missing := s.missing.map (· + BitVec.ofInt 16 d)
    changes := s.changes.map (· + BitVec.ofInt 16 d)
    resets := s.resets.map (fun r => (moveTick d r.1, r.2))
    rampTick := s.rampTick.map (moveTick d)
    gateAt := s.gateAt.map (moveTick d)
    levelPast := s.levelPast.map (fun e => (moveTick d e.1, e.2))
    owedFrom := s.owedFrom.map (moveTick d)
    lateSeen := []
    counted := s.counted.map (fun w => (w.1 + d, w.2 + d))
    loCut := s.loCut.map (· + d)
    coexCut := s.coexCut.map (fun e => (e.1, e.2 + d)) }

/-- What a retimer holds moves with the count: each sample leaves as many ticks from now as before the step. -/
def SinkSt.moveClock (d : Int) (k : SinkSt) : SinkSt :=
  { k with
    due := k.due.map (fun x => { x with
      release := moveTick d x.release, arrival := moveTick d x.arrival, sample := moveSample d x.sample })
    history := k.history.mapAll (fun _ => []) (fun l => l.map (fun x => { x with ball := moveTick d x.ball })) }

/-- A clock step (R55): the count is replaced, F and the ticks held against it move by the step (R195), and a control
period in progress is abandoned with record 0x0213 (R64). Carried out only while no path is live. DESIGN CHOICE (log 141): the
stamp of record 0x0206 is the new count. -/
def Core.stepClock (c : Core) (new source : Nat) : Core :=
  let d := sInt 64 ((new + 2 ^ 64 - c.clock) % 2 ^ 64)
  let c0 := c.stepMeasure
  let c1 := { c0 with clock := new % 2 ^ 64 }
  let c2 := (c1.count 0x1228 0 1).emit 1 0x0206 (dS64 d ++ d8 source)
  let c3 := { c2 with
    time := { c2.time with ppsLast := c2.time.ppsLast.map (moveTick d) }
    paths := c2.paths.mapAll (fun _ => PathSt.init) (PathSt.moveClock d)
    sinks := c2.sinks.mapAll (fun _ => SinkSt.init) (SinkSt.moveClock d)
    rfins := c2.rfins.mapAll (fun _ => RfinSt.init) (fun r => { r with buffer := r.buffer.map (fun (w : Nat × List (BitVec 12)) => (moveTick d w.1, w.2)) })
    line := { c2.line with
      inflow := c2.line.inflow.map (fun (e : Nat × Bool × Nat × Sample) => (e.1, e.2.1, moveTick d e.2.2.1, moveSample d e.2.2.2))
      outflow := c2.line.outflow.map (fun (e : Nat × Nat × Sample) => (e.1, moveTick d e.2.1, e.2.2)) }
    fe := { c2.fe with
      frame16 := c2.fe.frame16 + 16 * d
      actFrom := c2.fe.actFrom.map (· + d)
      lastStart := c2.fe.lastStart.map (· + d)
      jump := c2.fe.jump.map (· + 16 * d)
      points := c2.fe.points.mapAll (fun _ => PointsSt.init) (fun e => { e with
        changeAt := e.changeAt.map (moveTick d), pinAt := e.pinAt.map (moveTick d), since := e.since.map (moveTick d)
        follow := e.follow.map (fun (x : Nat × Nat) => (moveTick d x.1, x.2)) }) } }
  match c3.time.period with
  | none => c3
  | some _ =>
    ({ c3 with time := { c3.time with period := none }
               box := c3.box.mapAll (fun _ => SlotSt.init) (fun e => { e with next := none }) }.count 0x1243 0 1).emit 1 0x0213 []

/-- The codes that the order of 0x1223 lists; a code 0 ends it (R54). -/
def Core.sourceOrder (c : Core) : List Nat := ([1, 2, 3].map (c.ent 0x1223)).takeWhile (· ≠ 0)

/-- The best qualified source in that order (R54). -/
def Core.bestSource (c : Core) (qualified : List Nat) : Nat := (c.sourceOrder.find? qualified.contains).getD 0

/-- Whether the conditions under which a source qualifies hold (R54, R292, R193). -/
def Core.canQualify (c : Core) (code : Nat) : Bool :=
  match code with
  | 1 => (c.ent 0x5102 0 = 3 || c.ent 0x5102 0 = 4) && !c.isTerminus &&
      (match c.timePort with
        | some q => 16384 ≤ (c.port q).exchanges && 1 ≤ (c.port q).nbrAge
        | none => false)
  | 2 => 8 ≤ c.time.ppsAccepted
  | _ => c.ent 0x3202 0 = 3 && c.cfg.timingSource = 1

/-- 10.24 s, the donor's cycle of 1,024 radio frames, and one radio frame, in ticks (R55). -/
def donorCycle : Nat := 5033164800
def donorFrame : Nat := 4915200

/-- The latest count at or below `time` that agrees, modulo `m`, with `past` ticks having gone by since a multiple of it. -/
def alignTo (time m : Nat) (past : Int) : Nat :=
  wrapClock ((time : Int) - ((time : Int) - past) % (m : Int))

/-- The count a source gives at its first qualification (R53, R55): a PPS_IN edge falls on a whole second; the start of the
donor's frame 0 falls on a multiple of 10.24 s, and what the donor does not give is the command's. -/
def Core.sourceCount (c : Core) (code time : Nat) : Nat :=
  match code with
  | 2 => match c.time.ppsLast with
    | some l => alignTo time second (ticksFrom l c.clock)
    | none => time
  | 3 => alignTo time donorCycle ((c.clock : Int) - ((c.fe.frame16 + 8) / 16 - (c.fe.frameNumber : Int) * donorFrame))
  | _ => time

/-- A source qualifies (R53 to R55): in FREE, ACQUIRING or LOST its first qualification steps the clock to its time where
no path is live; otherwise the phase difference is slewed. The part then uses the best qualified source. -/
def Core.sourceQualified (c : Core) (code time : Nat) : Core :=
  if c.time.qualified.contains code then c
  else
    let c1 := { c with time := { c.time with qualified := c.time.qualified ++ [code] } }
    let c2 := if code = 1 then c1.setEntBit 0x5100 0 2 true else c1
    let best := c2.bestSource c2.time.qualified
    if best = 0 then c2
    else
      let count := c2.sourceCount code time
      let c3 := if best = code && c2.timeUncommon && c2.ent 0x110A 0 = 0 && count ≠ c2.clock
        then c2.stepClock count code else c2
      c3.setTime 2 best

/-- A source is lost (R54): the best one left takes over, or the status leaves LOCKED for HOLDOVER. -/
def Core.sourceLost (c : Core) (code : Nat) : Core :=
  if !c.time.qualified.contains code then c
  else
    let q := c.time.qualified.filter (· ≠ code)
    let c1 := { c with time := { c.time with qualified := q } }
    let c2 := if code = 1 then c1.setEntBit 0x5100 0 2 false else c1
    if c2.ent 0x1222 0 ≠ code then c2
    else
      let best := c2.bestSource q
      if best ≠ 0 then c2.setTime (c2.ent 0x1221 0) best
      else c2.setTime (if c2.ent 0x1221 0 = 2 then 3 else c2.ent 0x1221 0) 0

/-- A listed source starts to qualify while the synthesiser is locked: FREE or LOST becomes ACQUIRING (R53). -/
def Core.acquiring (c : Core) (code : Nat) : Core :=
  if (c.ent 0x1221 0 = 0 || c.ent 0x1221 0 = 4) && c.entBit 0x1201 0 0 && c.sourceOrder.contains code then
    c.setTime 1 (c.ent 0x1222 0)
  else c

/-- LOCKED is entered from ACQUIRING after 16 consecutive measurements of the phase within ±4 ticks (R53). -/
def Core.phaseSteady (c : Core) : Bool := !c.timeUncommon || 16 ≤ c.time.inPhase

def execSourceQualified (src : Fin 3) (time : Tick64) (s : State) : Out :=
  s.event (fun c => c.awake && c.entBit 0x1201 0 0 && c.canQualify (src + 1) && c.phaseSteady)
    (fun c => c.sourceQualified (src + 1) time.toNat)

def execSourceLost (src : Fin 3) (s : State) : Out := s.event Core.awake (fun c => c.sourceLost (src + 1))

def execTimeHoldoverExpiry (s : State) : Out :=
  s.event (fun c => c.ent 0x1221 0 = 3 && c.reached c.time.holdoverAt) (fun c => c.setTime 4 (c.ent 0x1222 0))

/-- A write to 0x1227.02 (R55): 1 arms a load at the next accepted PPS_IN edge, 2 loads at once unless a path is live. -/
def timeSetAct (v : Nat) : Act := coreAct (fun c =>
  if v = 1 then
    (0, { (c.setEnt 0x1227 2 1) with time := { c.time with setDeadline := some (c.now + 2 * second) } })
  else if v = 2 then
    if c.ent 0x110A 0 ≠ 0 then (0x0204, c.setEnt 0x1227 2 3)
    else (0, ({ c with time := { c.time with setDeadline := none } }.setEnt 0x1227 2 0).stepClock (c.ent 0x1227 1) 4)
  else (0x0301, c))

def execTimeSetAtPps (o : Origin) (s : State) : Out := .next (s.serveWrite o 0x1227 2 (d8 1) (timeSetAct 1))
def execTimeSetNow (o : Origin) (s : State) : Out := .next (s.serveWrite o 0x1227 2 (d8 2) (timeSetAct 2))

def execTimeSetTimeout (s : State) : Out :=
  s.event (fun c => c.reached c.time.setDeadline)
    (fun c => { (c.setEnt 0x1227 2 2) with time := { c.time with setDeadline := none } })

/-- Distance of `x` from the nearest multiple of one second, −half to +half. -/
def fromSecond (x : Int) : Int := (x + 245760000) % 491520000 - 245760000

/-- A rising edge on PPS_IN (R56): stamped less the cable delay, accepted inside the window about the second that the last
accepted edge predicts, else rejected and counted. An accepted edge carries out an armed time set (R55). -/
def Core.ppsEdge (c : Core) : Core :=
  let stamp : Int := (c.clock : Int) - c.entS 16 0x122C 0
  let err := match c.time.ppsLast with | some l => fromSecond (stamp - (l : Int)) | none => 0
  if (c.ent 0x122B 0 : Int) < err || err < -(c.ent 0x122B 0 : Int) then
    ({ c with time := { c.time with ppsAccepted := 0 } }.count 0x122A 0 1).firstInSecond 1 0x0207 0 []
  else if c.time.ppsLast = some (wrapClock stamp) then c
  else
    let c1 := { c with time := { c.time with
      ppsLast := some (wrapClock stamp), ppsAccepted := c.time.ppsAccepted + 1 } }
    let c2 := c1.acquiring 2
    let c3 := if c2.ent 0x1222 0 = 2 then c2.setS 32 0x1225 0 (256 * fromSecond stamp) else c2
    if c3.time.setDeadline.isNone then c3
    else
      let c4 := { c3 with time := { c3.time with setDeadline := none } }
      if c4.ent 0x110A 0 ≠ 0 then c4.setEnt 0x1227 2 3
      else
        (c4.setEnt 0x1227 2 0).stepClock (c4.ent 0x1227 1) 4

def execPpsInEdge (s : State) : Out :=
  s.event (fun c => c.awake && (c.sourceOrder.contains 2 || c.time.setDeadline.isSome)) Core.ppsEdge

/-- Three predicted edges are missing in a row (R56). -/
def Core.ppsOverdue (c : Core) : Bool :=
  match c.time.ppsLast with
  | some l => l + 3 * second + c.ent 0x122B 0 < c.clock + c.entS 16 0x122C 0 * (-1)
  | none => false

def execPpsInLost (s : State) : Out :=
  s.event Core.ppsOverdue (fun c =>
    ({ c with time := { c.time with ppsLast := none, ppsAccepted := 0 } }).sourceLost 2)

/-- The station clock less the PPS_OUT offset is a whole second (R57). -/
def Core.ppsOutDue (c : Core) : Bool :=
  c.awake && c.ppsAllowed && ((c.clock : Int) - c.entS 32 0x122E 0) % 491520000 = 0

def execPpsOutRise (s : State) : Out :=
  s.event Core.ppsOutDue (fun c =>
    { c with time := { c.time with ppsOut := true, ppsFall := some (c.now + c.ent 0x122F 0) } })

def execPpsOutFall (s : State) : Out :=
  s.event (fun c => c.reached c.time.ppsFall)
    (fun c => { c with time := { c.time with ppsOut := false, ppsFall := none } })

/-- The discipline loop's correction, in 0.001 ppb (R53, R54, R58): held in HOLDOVER and LOST; otherwise the frequency it
corrects, which is open, and the frequency offset at which it removes a phase difference, open within the slew limit. -/
def Core.loopCorrection (c : Core) : Core :=
  let st := c.ent 0x1221 0
  if st = 1 || st = 2 then
    let f := c.drawIn (-(2 ^ 31) + 1) (2 ^ 31 - 1)
    let limit : Int := (c.ent 0x1230 6 : Int) * 1000
    let w := f.2.drawIn (-limit) limit
    let v := f.1 + w.1
    { w.2 with time := { w.2.time with
      loop := v, loopPast := if st = 2 then (v :: w.2.time.loopPast).take 10000 else w.2.time.loopPast } }
  else c

/-- The loop's correction as REFTUNE codes (R58): through the gain in 0.001 ppb per code, rounded, and the polarity. -/
def Core.loopCodes (c : Core) : Int :=
  let n := roundDiv c.time.loop (max 1 (c.ent 0x1230 3))
  if c.ent 0x1230 4 = 0 then n else -n

/-- The errors measured against the source in use or being qualified: the phase for R53, and the ±25 ppm check of REFCLK
(R46). -/
def Core.measureErrors (c : Core) : Core :=
  let st := c.ent 0x1221 0
  if st = 1 || st = 2 then
    let f := c.drawIn (-(2 ^ 31) + 1) (2 ^ 31 - 1)
    let p := f.2.drawIn (-(2 ^ 31) + 1) (2 ^ 31 - 1)
    let c0 : Core := { p.2 with time := { p.2.time with inPhase := if withinI p.1 1024 then p.2.time.inPhase + 1 else 0 } }
    if c0.ent 0x1222 0 = 0 then c0
    else
      let c1 := (c0.setS 32 0x1226 0 f.1).setS 32 0x1225 0 p.1
      let beyond := !withinI f.1 25000000
      let c2 := if beyond && !c1.entBit 0x1201 0 2 then c1.emit 1 0x0209 [] else c1
      c2.setEntBit 0x1201 0 2 beyond
  else if c.ent 0x1222 0 = 0 then (c.setEnt 0x1225 0 0x80000000).setEnt 0x1226 0 0x80000000
  else c

/-- The REFTUNE update of every 1 ms (R58). -/
def Core.reftuneUpdate (c : Core) : Core :=
  let c0 := { c with time := { c.time with reftuneNext := c.now + ms } }
  let c1 := c0.measureErrors
  if c1.ent 0x1230 1 = 2 then
    { (c1.setEnt 0x1230 8 1) with time := { c1.time with reftune := c1.ent 0x1230 2, clamped := false } }
  else if c1.ent 0x1230 1 = 0 then c1
  else
    let c2 := c1.loopCorrection
    let sum : Int := (c2.time.reftuneBase : Int) + c2.loopCodes + c2.entS 16 0x1230 7
    let code := clampI 0 65535 sum
    let beyond := decide (code ≠ sum)
    let c3 := if beyond && !c2.time.clamped then c2.emit 1 0x0208 [] else c2
    { (c3.setEnt 0x1230 8 (if beyond then 2 else 1)) with time := { c3.time with reftune := code.toNat, clamped := beyond } }

def execReftuneUpdate (s : State) : Out :=
  s.event (fun c => c.awake && c.time.reftuneNext ≤ c.now) Core.reftuneUpdate

/-- One path's part of a slack window (R62). DESIGN CHOICE (log 142): a late sample enters the lifetime minimum 0x2881 as 0, as
it does 0x2880. -/
def Core.slackPath (c : Core) (p : Nat) : Core :=
  let st := c.path p
  let floor := c.entS 16 0x2885 0
  let value : Option Int := if st.lateWindow ≠ 0 then some 0 else st.minSlack.map (clampI (-32767) 32767)
  let c1 := c.setEnt 0x2880 (p + 1) (match value with | some v => rawOf 16 v | none => 0x8000)
  let old := c1.ent 0x2881 (p + 1)
  -- a late sample counts as 0 in the lifetime minimum too
  let c2 := match st.lifeSlack.map (clampI (-32767) 32767) with
    | some v => if old = 0x8000 || v < sInt 16 old then c1.setS 16 0x2881 (p + 1) v else c1
    | none => c1
  let c3 := if st.lateWindow ≠ 0 then (c2.countPromise 5).emit (2 + p) 0x0210 (d32 st.lateWindow) else c2
  let low := match value with | some v => decide (v < floor) | none => false
  let c4 := if low && st.floorArmed then (c3.emit (2 + p) 0x0211 (dS16 (value.getD 0))).irq 1 else c3
  let armed := match value with | some v => decide (floor ≤ v) | none => st.floorArmed
  c4.setPath p { (c4.path p) with
    minSlack := none, lifeSlack := none, lateWindow := 0, floorArmed := armed }

/-- One RFIN's part of a slack window: the overrun record. -/
def Core.slackRfin (c : Core) (n : Nat) : Core :=
  let r := c.rfin n
  if r.overruns = 0 then c else (c.setRfin n { r with overruns := 0 }).emit 1 0x0212 (d8 n ++ d32 r.overruns)

def Core.slackWindow (c : Core) : Core :=
  let c1 := (c.each allPaths Core.slackPath).each (List.range 8) Core.slackRfin
  let low := allPaths.any (fun p => c1.ent 0x2880 (p + 1) ≠ 0x8000 && c1.entS 16 0x2880 (p + 1) < c1.entS 16 0x2885 0)
  { (c1.wrapAdd 32 0x2884 0 1) with time := { c1.time with slackFlagged := low } }

def execSlackWindowEnd (s : State) : Out :=
  s.event (fun c => c.awake && c.clock % 491520 = 0) Core.slackWindow

/-- The configured paths bound to an LO (R50). -/
def Core.loPaths (c : Core) (l : Nat) : List Nat := allPaths.filter (fun p => (c.cfg.losOf p).contains l)

/-- Counts the active windows that an LO's report cuts: the window stays muted to its end (R197). -/
def Core.loCut (c : Core) (l : Nat) (p : Nat) : Core :=
  if c.cfg.isTdd p && !(c.cfg.rfouts p).isEmpty && c.inWindow p c.clock && !c.windowCut (c.path p).loCut then
    ((c.modPath p (fun s => { s with loCut := c.windowEnd p c.clock })).count (pIdx p 0x29) 2 1).emit 36 0x0804
      (d8 p ++ d8 l ++ d32 (c.ent 0x3203 3))
  else c

/-- The LO reports unlocked: every path bound to it is hard-muted, record 0x0203 with the mask (R50). -/
def Core.loMute (c : Core) (l : Nat) : Core :=
  let paths := c.loPaths l
  ((c.each paths (fun c p => c.loCut l p)).each paths Core.refreshPath).emit 1 0x0203 (d8 l ++ d32 (maskOf paths))

/-- Starts a retune (R49), or turns the LO off (R48), which ends a calibration held for after it without lock. DESIGN
CHOICE (log 54): an LO turned off reports unlocked and so writes record 0x0203; a retune to another band calibrates as part of
its work, under bit 2 of its status alone. -/
def Core.loRetune (c : Core) (l v : Nat) : Core :=
  let st := c.lo l
  if v = 0 then
    let c1 := if st.calPending then c.setEnt (0x1210 + l) 6 2 else c
    (((c1.setLo l LoSt.init).setEnt (0x1210 + l) 3 0).setEnt (0x1210 + l) 8 0).loMute l
  else
    let r := c.drawIn 0 63
    let band := r.1.toNat
    let other := st.freq = 0 || r.2.ent (0x1210 + l) 7 ≠ band
    let c1 := (r.2.setEnt (0x1210 + l) 7 band).setLo l
      { st with freq := v, held := none, deadline := some (c.now + (if other then 122880 else 73728)) }
    ((c1.setEnt (0x1210 + l) 3 4).count (0x1210 + l) 5 1).loMute l

/-- Starts a band calibration at the present frequency (R49). -/
def Core.loCalibrate (c : Core) (l : Nat) : Core :=
  let st := c.lo l
  let c1 := c.setLo l { st with calPending := false, deadline := some (c.now + 122880) }
  ((c1.setEnt (0x1210 + l) 3 2).setEnt (0x1210 + l) 6 1).loMute l

/-- The LO is retuning or calibrating. -/
def Core.loBusy (c : Core) (l : Nat) : Bool := c.entBit (0x1210 + l) 3 1 || c.entBit (0x1210 + l) 3 2

/-- A frequency write: held while a retune or calibration runs (R51), else a retune. -/
def Core.loFrequency (c : Core) (l v : Nat) : Core :=
  let c1 := c.setEnt (0x1210 + l) 1 v
  if c1.loBusy l then c1.setLo l { c1.lo l with held := some v } else c1.loRetune l v
def loFrequencyAct (l v : Nat) : Act := liveAct (0x1210 + l) 1 v (fun c => c.loFrequency l v)

def execLoFrequencyWrite (o : Origin) (l : Fin 2) (v : Word) (s : State) : Out :=
  .next (s.serveWrite o (0x1210 + l) 1 (d32 v.toNat) (loFrequencyAct l v.toNat))

/-- A calibration command: run after a retune or calibration in progress, once however often it is commanded there (R51);
refused where the LO is off; 0x1210.06 then reads 2, no lock (DESIGN CHOICE, log 54). -/
def loCalibrationAct (l v : Nat) : Act := coreAct (fun c =>
  if v ≠ 1 then (0x0301, c)
  else if (c.lo l).freq = 0 then (0x0204, c.setEnt (0x1210 + l) 6 2)
  else if c.loBusy l then (0, (c.setEnt (0x1210 + l) 6 1).setLo l { c.lo l with calPending := true })
  else (0, c.loCalibrate l))

def execLoCalibration (o : Origin) (l : Fin 2) (v : Byte) (s : State) : Out :=
  .next (s.serveWrite o (0x1210 + l) 6 (d8 v.toNat) (loCalibrationAct l v.toNat))

/-- Orders the invalid samples of a change that resets nothing (R106), for samples born from now on. -/
def Core.invalidate (c : Core) (p code : Nat) : Core :=
  if !(c.path p).computing then c
  else (c.modPath p (fun s => { s with resets := s.resets ++ [(c.clock, code)] })).setPe p 9 1
    (max (c.pe p 9 1) (c.cfg.resetCount p code))

/-- The NCO words and converter frequencies of a path from the configuration and the LOs as realised (R72, R75). A side
that meets no converter reads 0. DESIGN CHOICE (log 143): the units of 10 Hz are rounded to the nearest, half up (R90). -/
def Core.refreshNco (c : Core) (p : Nat) : Core :=
  let g := c.cfg
  -- the manual states no rounding to the 10 Hz units
  let hz := fun (f : Int) => (openRound f 10000).toNat % 2 ^ 32
  let rx := if g.rxSide p then (ncoWord (g.rxFreq p) rxRate, hz (g.rxFreq p)) else (0, 0)
  let tx := if g.txSide p then (ncoWord (g.txFreq p) txRate, hz (g.txFreq p)) else (0, 0)
  let c1 := (((c.setPe p 1 5 rx.1).setPe p 1 6 tx.1).setPe p 1 7 rx.2).setPe p 1 8 tx.2
  if rx.1 = c.pe p 1 5 then c1 else c1.invalidate p 8

/-- The frequency an LO realises for one written in kHz, in mHz (R48): the nearest step of 245.76 MHz / 2^32. -/
def loRealise (kHz : Nat) : Int :=
  openRound (roundDiv ((kHz : Int) * 2 ^ 32) 245760 * 245760000000) (2 ^ 32)

/-- Whether a path lies on another side of the transmit zone boundary than a path that shares an RFOUT with it (R73). -/
def Cfg.sidesClash (g : Cfg) (p : Nat) : Bool :=
  (g.rfouts p).any (fun o => (g.boundTo o).any (fun q => g.above q != g.above p))

/-- The same-side rule of R73 after LO `l` has locked (R74): a path bound to it that breaks the rule, or one that broke it
before, is marked until its f_c meets R73. -/
def Core.refreshSides (c : Core) (paths : List Nat) : Core :=
  (c.each allPaths (fun c p => c.modPath p (fun s => { s with
    offSide := c.cfg.sidesClash p && (s.offSide || paths.contains p) }))).refreshMix

/-- An LO reaches lock (R50, R51, R74): the realised frequency is recomputed and the NCO words with it, a path
whose frequency breaks R73 stays muted with record 0x0304, and work held during the retune or calibration starts. -/
def Core.loLock (c : Core) (l : Nat) : Core :=
  let st := c.lo l
  let c1 := (c.setEnt (0x1210 + l) 8 (loRealise st.freq).toNat).setEnt (0x1210 + l) 3 1
  let c2 := (if c.entBit (0x1210 + l) 3 1 then c1.setEnt (0x1210 + l) 6 (if st.calPending then 1 else 0) else c1).setLo l
    { st with deadline := none, held := none }
  match st.held with
  | some v => c2.loRetune l v
  | none =>
    if st.calPending then c2.loCalibrate l
    else
      let paths := c2.loPaths l
      let c3 := ((c2.each paths Core.refreshNco).refreshSides paths).emit 1 0x0204 (d8 l ++ d32 (maskOf paths))
      (c3.each paths (fun c p =>
        if c.cfg.freqsOk p && !(c.path p).offSide then c else c.emit (2 + p) 0x0304 [])).refreshPaths

def execLoLock (l : Fin 2) (s : State) : Out :=
  s.event (fun c => c.awake && (c.lo l).freq ≠ 0 && !c.entBit (0x1210 + l) 3 0) (fun c => c.loLock l)

def execLoLockOverdue (l : Fin 2) (s : State) : Out :=
  s.event (fun c => c.reached (c.lo l).deadline && !c.entBit (0x1210 + l) 3 0) (fun c =>
    let c1 := if c.entBit (0x1210 + l) 3 1 then c.setEnt (0x1210 + l) 6 2 else c
    ((c1.setEntBit (0x1210 + l) 3 3 true).setLo l { c1.lo l with deadline := none }).emit 1 0x0203
      (d8 l ++ d32 (maskOf (c1.loPaths l))))

def execLoLockLoss (l : Fin 2) (s : State) : Out :=
  s.event (fun c => c.awake && c.entBit (0x1210 + l) 3 0)
    (fun c => ((c.setEntBit (0x1210 + l) 3 0 false).count (0x1210 + l) 4 1).loMute l)

end Sys2Proof.Machine
end

