-- ==== Sys2Proof/Machine/Identity.lean ====
section
/-! DEFINITION. Identity (R329 to R339): the signing engine, the join exchange at the terminus and at a station, the roster,
pending joins, and the signed export of the Occurrence Book (R337, R410). -/

namespace Sys2Proof.Machine

def ascii (s : String) : List Byte := s.toList.map (fun c => BitVec.ofNat 8 c.toNat)

/-- The part's serial number (16 bytes), public key (65) and key fingerprint (32), as the identity store holds them (R329). -/
def serialNo : List Byte := padTo 16 Config.serial
def publicKey : List Byte := padTo 65 Config.publicKey
def fingerprintOf (key : List Byte) : List Byte := padTo 32 (Config.sha256 key)

/-- Starts a signature, which ends within 2.000 ms (R330). -/
def Core.startSigning (c : Core) (purpose : Nat) (message : List Byte) : Core :=
  { c with ident := { c.ident with signing := some ⟨purpose, message, c.clock, c.now + 983040⟩ } }

/-- A write of a nonce to 0x5210.01 (R330, R331). -/
def attestAct (nonce : List Byte) : Act := coreAct (fun c =>
  if !c.ident.storeGood then (0x0701, c.setEnt 0x5210 1 2)
  else if c.ident.signing.isSome then (0x0205, c.setEnt 0x5210 1 2)
  else (0, (c.setEnt 0x5210 1 1).startSigning 2 (ascii "CLXATST1" ++ nonce ++ serialNo ++ leBytes 8 c.clock)))

def execAttestation (o : Origin) (nonce : List Byte) (s : State) : Out :=
  .next (s.serveWrite o 0x5210 1 nonce (attestAct nonce))

/-- A transaction that two parts originate themselves during a join (R332): tag 0, epoch 0, no deadline. -/
def joinBody (index : Nat) (value : List Byte) : List Byte :=
  d8 2 ++ d8 0 ++ d16 0 ++ d32 0 ++ leBytes 8 0 ++ d16 index ++ d8 0 ++ d8 0 ++ d16 value.length ++ value
def Core.joinSend (c : Core) (dest index : Nat) (value : List Byte) : Core :=
  (c.originate dest (if c.isTerminus then c.address else c.ent 0x5101 2) 0 (joinBody index value)).1

/-- A signature completes (R330): an attestation becomes readable, a join answer is sent; a join answer that waited starts. -/
def Core.signed (c : Core) : Core :=
  match c.ident.signing with
  | none => c
  | some g =>
    let r := c.draw
    let sig := padTo 64 (Config.sign r.1 g.message)
    let c1 := { r.2 with ident := { r.2.ident with signing := none } }
    let c2 := if g.purpose = 2 then (c1.setEnt 0x5210 2 (ofLe (leBytes 8 g.clock ++ sig))).setEnt 0x5210 1 0
      else if g.purpose = 1 && c1.ent 0x5102 0 = 2 then c1.joinSend (c1.ent 0x5103 2) 0x5222 (serialNo ++ sig)
      else c1
    match c2.ident.waiting with
    | some w => { c2 with ident := { c2.ident with signing := some { w with by_ := c2.now + 983040 }, waiting := none } }
    | none => c2

def execSignatureDone (s : State) : Out :=
  s.event (fun c => match c.ident.signing with | some g => g.purpose ≠ 3 | none => false) Core.signed

/-- Enters an admission state (R295): record 0x0B06, and the base mode that states 3 and 4 give (R335). -/
def Core.setAdmission (c : Core) (new : Nat) : Core :=
  let old := c.ent 0x5102 0
  if old = new then c
  else
    let c1 := ((c.setEnt 0x5102 0 new).setEntBit 0x5100 0 1 (new = 3 || new = 4)).emit 39 0x0B06
      (d8 0xFF ++ d8 old ++ d8 new ++ d16 (c.ent 0x5103 1))
    let c2 := { c1 with line := { c1.line with
      requestAt := if new = 1 then some c1.now else none
      decisionBy := if new = 2 then some (c1.now + 200 * ms) else none
      retryAt := if new = 5 then some (c1.now + 10 * second) else none
      admittedAt := if new = 3 || new = 4 then c1.now else c1.line.admittedAt } }
    if new = 4 then (c2.setEnt 0x1101 0 mStand).recompute
    else if new = 3 && old = 4 then (c2.setEnt 0x1101 0 (c2.ent 0x110B 0)).recompute
    else c2

/-- Every 100.0 ms a requesting station sends its request toward the terminus (R295, R332). -/
def Core.sendRequest (c : Core) : Core :=
  ({ c with line := { c.line with requestAt := some (c.now + 100 * ms) } }).joinSend (c.ent 0x5103 2) 0x5220
    (serialNo ++ d16 (c.ent 0x5101 2) ++ d16 0 ++ publicKey)

def execJoinRequestSend (s : State) : Out :=
  s.event (fun c => c.awake && !c.isTerminus && c.ent 0x5102 0 = 1 && c.reached c.line.requestAt) Core.sendRequest

/-- A challenge reaches its station (R332): a join answer, unless the identity store failed (R331). -/
def Core.challenged (c : Core) (v : List Byte) : Core :=
  if c.ent 0x5102 0 ≠ 1 || v.take 16 ≠ serialNo || c.isTerminus || !c.ident.storeGood then c
  else
    let c1 := (c.setEnt 0x5103 2 (field v 48 2)).setAdmission 2
    let m := ascii "CLXJOIN1" ++ (v.drop 16).take 32 ++ serialNo ++ d16 (field v 48 2) ++ d16 (c1.ent 0x5101 2)
    if c1.ident.signing.isSome then { c1 with ident := { c1.ident with waiting := some ⟨1, m, c1.clock, 0⟩ } }
    else c1.startSigning 1 m

def execJoinChallenge (value : List Byte) (s : State) : Out := s.event Core.awake (fun c => c.challenged value)

/-- A decision reaches its station (R295, R335). -/
def Core.decided (c : Core) (v : List Byte) : Core :=
  let d := field v 18 1
  if v.take 16 ≠ serialNo || c.isTerminus || !(c.ent 0x5102 0 = 2 || c.ent 0x5102 0 = 4) || d < 3 || 5 < d then c
  else (if d = 5 then c else c.setEnt 0x5103 1 (field v 16 2)).setAdmission d

def execJoinDecision (value : List Byte) (s : State) : Out := s.event Core.awake (fun c => c.decided value)

def execJoinDecisionTimeout (s : State) : Out :=
  s.event (fun c => c.ent 0x5102 0 = 2 && c.reached c.line.decisionBy) (fun c => c.setAdmission 1)

def execJoinRetry (s : State) : Out :=
  s.event (fun c => c.ent 0x5102 0 = 5 && c.reached c.line.retryAt) (fun c => c.setAdmission 1)

/-- Fields of a roster entry (R333). -/
def rosAddress (e : Nat) : Nat := e % 2 ^ 16
def rosState (e : Nat) : Nat := e / 2 ^ 16 % 2 ^ 8
def rosPrint (e : Nat) : Nat := e / 2 ^ 32 % 2 ^ 256
def rosEntry (address state flags : Nat) (fingerprint : List Byte) : Nat :=
  ofLe (d16 address ++ d8 state ++ d8 flags ++ padTo 32 fingerprint ++ d32 0)

def Core.rosterGet (c : Core) (n : Nat) : Nat := c.ident.roster.get (fun _ => 0) n
/-- Writes a roster entry and its persistent-state unit; `state` 2 counts only since reset. -/
def Core.rosterPut (c : Core) (n raw : Nat) : Core :=
  let c1 := { c with ident := { c.ident with roster := c.ident.roster.put (fun _ => 0) n raw } }
  let c2 := c1.setEnt 0x5234 0 (c1.ident.roster.filter (fun e => rosState e.2 ≠ 0)).length
  c2.persistUnit [(rosterKey n, if rosState raw = 2 then raw - 2 ^ 16 else raw)]
/-- The entry that holds an address, one that holds a fingerprint, and a free one. -/
def Core.rosterAt (c : Core) (address : Nat) : Option (Nat × Nat) :=
  List.find? (fun e => rosState e.2 ≠ 0 && rosAddress e.2 = address) c.ident.roster
def Core.rosterOf (c : Core) (fingerprint : List Byte) : Option (Nat × Nat) :=
  List.find? (fun e => rosState e.2 ≠ 0 && rosPrint e.2 = ofLe (padTo 32 fingerprint)) c.ident.roster
def Core.rosterFree (c : Core) : Option Nat := (List.range 4096).find? (fun n => rosState (c.rosterGet n) = 0)

/-- A node is present (R333): admitted since reset, and heard within 10 s. -/
def Core.present (c : Core) (e : Nat) : Bool :=
  rosState e = 2 && c.now < (c.ident.heard.get (fun _ => 0) (rosAddress e)) + 10 * second &&
    (c.ident.heard.get (fun _ => 0) (rosAddress e)) ≠ 0

/-- Marks an enrolled node as admitted since reset. -/
def Core.markAdmitted (c : Core) (n : Nat) : Core :=
  let e := c.rosterGet n
  { c with ident := { c.ident with
    roster := c.ident.roster.put (fun _ => 0) n (rosEntry (rosAddress e) 2 (e / 2 ^ 24 % 2 ^ 8) (leBytes 32 (rosPrint e))) } }

/-- A roster entry as written, its reserved bits cleared, and whether another entry holds its address or fingerprint. -/
def rosterRaw (entry : List Byte) : Nat := ofLe (setAt (entry.take 36) 3 (entry.getD 3 0#8 &&& 1#8))
def Core.rosterClash (c : Core) (n raw : Nat) : Bool :=
  c.ident.roster.any (fun e => e.1 ≠ n && rosState e.2 ≠ 0 && (rosAddress e.2 = rosAddress raw || rosPrint e.2 = rosPrint raw))

/-- A write of a roster entry at the cursor (R333). -/
def rosterAct (o : Origin) (entry : List Byte) : Act := coreAct (fun c =>
  let n := c.ent 0x5232 0
  let raw := rosterRaw entry
  let clash := c.rosterClash n raw
  let note := fun (c : Core) => c.emit 41 0x0D06 (d16 n ++ d16 (rosAddress raw) ++ d32 (originator o) ++ d16 o.tag.toNat)
  if rosState raw = 0 then (0, note (c.rosterPut n 0))
  else if 2 < rosState raw then (0x0301, c)
  else if clash then (0x0701, c)
  else (0, note (c.rosterPut n raw)))

def execRosterWrite (o : Origin) (entry : List Byte) (s : State) : Out :=
  .next (s.serveWrite o 0x5233 0 entry (rosterAct o entry))

/-- Pending joins (0x5236): the one of a fingerprint, and the first empty one, as subindices. -/
def pendBytes (e : Nat) : List Byte := leBytes 52 e
def Core.pendingOf (c : Core) (fingerprint : List Byte) : Option Nat :=
  ((List.range 16).map (· + 1)).find? (fun k =>
    let e := pendBytes (c.ent 0x5236 k)
    field e 2 1 ≠ 0 && (e.drop 20).take 32 = padTo 32 fingerprint)
def Core.pendingFree (c : Core) : Option Nat :=
  ((List.range 16).map (· + 1)).find? (fun k => field (pendBytes (c.ent 0x5236 k)) 2 1 = 0)

/-- The terminus sends its decision (R332). -/
def Core.sendDecision (c : Core) (serial : List Byte) (address decision reason : Nat) : Core :=
  c.joinSend 0 0x5223 (padTo 16 serial ++ d16 address ++ d8 decision ++ d8 reason)

/-- Records and sends a decision of the terminus (R334). -/
def Core.judge (c : Core) (j : Joining) (address decision reason : Nat) : Core :=
  let f := fingerprintOf j.key
  (c.emit 41 0x0D02 (d16 address ++ d8 decision ++ d8 reason ++ f.take 4)).sendDecision j.serial address decision reason

/-- Enters or refreshes a pending join of a kind; the table may be full. -/
def Core.enterPending (c : Core) (j : Joining) (kind decision : Nat) : Option Core :=
  let f := fingerprintOf j.key
  let v := ofLe (d16 j.address ++ d8 kind ++ d8 decision ++ padTo 16 j.serial ++ f)
  match c.pendingOf f with
  | some k => some (c.setEnt 0x5236 k v)
  | none => c.pendingFree.map (fun k => c.setEnt 0x5236 k v)

/-- A node nobody has enrolled at an address nobody holds (R334): by policy. -/
def Core.decideByPolicy (c : Core) (j : Joining) : Core :=
  let f := fingerprintOf j.key
  let stand := match c.enterPending j 2 4 with
    | some c1 => c1.judge j j.address 4 7
    | none => c.judge j j.address 5 8
  match c.ent 0x5231 0 with
  | 0 => stand
  | 1 => c.judge j j.address 5 7
  | 2 => match c.rosterFree with
    | some n => ((c.rosterPut n (rosEntry j.address 2 1 f))).judge j j.address 3 7
    | none => stand
  | _ =>
    match c.ident.referred.find? (fun r => r.fingerprint = f && c.now < r.until_) with
    | some r =>
      ({ c with ident := { c.ident with referred := c.ident.referred.filter (fun x => x.fingerprint ≠ f) } }).judge j j.address
        (if r.accept then 3 else 5) 7
    | none => match c.enterPending j 3 5 with
      | some c1 => c1.judge j j.address 5 9
      | none => c.judge j j.address 5 8

/-- The decision for a verified join (R334), by the first case that applies. -/
def Core.admitNode (c : Core) (j : Joining) : Core :=
  let f := fingerprintOf j.key
  match c.rosterOf f with
  | some (n, e) =>
    if rosAddress e = j.address then (c.markAdmitted n).judge j j.address 3 0
    else ((c.markAdmitted n).emit 41 0x0D03 (d16 j.address ++ d16 (rosAddress e))).judge j (rosAddress e) 3 2
  | none =>
    if j.address = 0 then c.judge j 0 5 3
    else match c.rosterAt j.address with
      | some (_, e) =>
        if c.present e then c.judge j j.address 5 4
        else match c.enterPending j 1 4 with
          | some c1 =>
            -- a request while the entry stands only refreshes it (R335)
            (if (c.pendingOf f).isSome then c1
              else c1.emit 41 0x0D04 (d16 j.address ++ (leBytes 32 (rosPrint e)).take 4 ++ f.take 4)).judge j j.address 4 5
          | none => c.judge j j.address 5 8
      | none => c.decideByPolicy j

/-- A join request reaches the terminus (R332): a fresh challenge, or a refusal while another join for the address runs. -/
def Core.joinRequested (c : Core) (v : List Byte) : Core :=
  if !c.isTerminus then c
  else
    let open_ := c.ident.joins.filter (fun j => c.now < j.since + 200 * ms)
    let address := field v 16 2
    let j0 : Joining := ⟨address, v.take 16, (v.drop 20).take 65, [], c.now⟩
    let c0 := { c with ident := { c.ident with joins := open_ } }
    if open_.any (fun j => j.address = address) then c0.judge j0 address 5 6
    else
      let r := c0.draw
      let nonce := leBytes 32 r.1
      ({ r.2 with ident := { r.2.ident with joins := open_ ++ [{ j0 with nonce := nonce }] } }).joinSend 0 0x5221
        (padTo 16 j0.serial ++ nonce ++ d16 c0.address)

def execJoinRequest (value : List Byte) (s : State) : Out :=
  s.event (fun c => c.phase = .ready && value.length = 85) (fun c => c.joinRequested value)

/-- A join answer reaches the terminus (R332, R334). -/
def Core.answered (c : Core) (v : List Byte) : Core :=
  match c.ident.joins.find? (fun j => j.serial = v.take 16) with
  | none => c
  | some j =>
    let c1 := { c with ident := { c.ident with joins := c.ident.joins.filter (fun x => x.serial ≠ j.serial) } }
    let m := ascii "CLXJOIN1" ++ j.nonce ++ j.serial ++ d16 c1.address ++ d16 j.address
    if Config.verify j.key m ((v.drop 16).take 64) then c1.admitNode j else c1.judge j j.address 5 1

def execJoinAnswer (value : List Byte) (s : State) : Out :=
  s.event (fun c => c.phase = .ready && c.isTerminus && value.length = 80) (fun c => c.answered value)

/-- The pending join that an address and the first 8 bytes of a fingerprint name. -/
def Core.pendingHit (c : Core) (address : Nat) (print8 : List Byte) : Option Nat :=
  ((List.range 16).map (· + 1)).find? (fun k =>
    let e := pendBytes (c.ent 0x5236 k)
    field e 2 1 ≠ 0 && field e 0 2 = address && (e.drop 20).take 8 = print8)

/-- A host's decision on a pending join (R335). -/
def pendingAct (o : Origin) (address : Nat) (print8 : List Byte) (action : Nat) : Act := coreAct (fun c =>
  match c.pendingHit address print8 with
  | none => (0x0701, c.setEnt 0x5235 0 1)
  | some k =>
    let e := pendBytes (c.ent 0x5236 k)
    let kind := field e 2 1
    let serial := (e.drop 4).take 16
    let print := (e.drop 20).take 32
    let close := fun (c : Core) => ((c.setEnt 0x5236 k 0).setEnt 0x5235 0 0).emit 41 0x0D05
      (d16 address ++ d8 action ++ d32 (originator o) ++ d16 o.tag.toNat)
    let decided := fun (c : Core) (accept : Bool) => { c with ident := { c.ident with
      referred := c.ident.referred.filter (fun r => r.fingerprint ≠ print) ++ [⟨print, accept, c.now + 10 * second⟩] } }
    if action = 1 && kind = 3 then (0, close (decided c true))
    else if action = 1 then
      match (match c.rosterAt address with | some e => some e.1 | none => c.rosterFree) with
      | some n =>
        if c.rosterClash n (rosEntry address 2 0 print) then (0x0701, c)
        else (0, close ((c.rosterPut n (rosEntry address 2 0 print)).sendDecision serial address 3 0))
      | none => (0x0204, c.setEnt 0x5235 0 2)
    else if action = 2 then
      (0, close ((if kind = 3 then decided c false else c).sendDecision serial address 5 (Config.codeOf 0x5235 % 256)))
    else (0x0301, c))

def execPendingAccept (o : Origin) (address : Half) (fingerprint : List Byte) (s : State) : Out :=
  .next (s.serveWrite o 0x5235 0 (d16 address.toNat ++ fingerprint ++ d8 1) (pendingAct o address.toNat fingerprint 1))
def execPendingReject (o : Origin) (address : Half) (fingerprint : List Byte) (s : State) : Out :=
  .next (s.serveWrite o 0x5235 0 (d16 address.toNat ++ fingerprint ++ d8 2) (pendingAct o address.toNat fingerprint 2))

/-- The records present among the sequences of an export, in order (R410). -/
def State.exportRecords (s : State) (first count : Nat) : List Nat :=
  ((List.range count).map (fun k => s.nv.recordAt (first + k))).filter (· ≠ 0)

/-- A request for an export (R410): refused while one runs; the book freezes, and the trailer is hashed and signed. -/
def exportAct (v : Nat) : Act := fun s =>
  if v ≠ 1 then (0x0301, 0, s)
  else if !s.core.ident.storeGood then (0x0701, 0, s.onCore (fun c => c.setEnt 0x6430 3 2))
  else if s.core.ident.signing.isSome || s.core.ident.waiting.isSome then
    (0x0205, 0, s.onCore (fun c => c.setEnt 0x6430 3 2))
  else
    let first := s.core.ent 0x6430 1
    let count := s.core.ent 0x6430 2
    let l := s.exportRecords first count
    let seqs := l.map seqOf
    let hash := padTo 32 (Config.sha256 (l.flatMap (leBytes 32)))
    let trailer := ascii "CLXBOOK1" ++ serialNo ++ d16 s.core.address ++ d16 (seqs.headD 0) ++ d16 (seqs.getLastD 0) ++
      d32 l.length ++ leBytes 8 s.core.clock ++ hash
    let s1 := s.freeze 2
    (0, 0, { s1 with
      book := { s1.book with export_ := some (first, count) }
      core := ((s1.core.setEnt 0x6430 3 1).setEntBit 0x6400 0 1 false).startSigning 3 trailer })

def execBookExport (o : Origin) (s : State) : Out := .next (s.serveWrite o 0x6430 3 (d8 1) (exportAct 1))

/-- The export's trailer is signed (R337, R410). -/
def State.exported (s : State) : State :=
  match s.core.ident.signing with
  | none => s
  | some g =>
    let c := s.core
    let r := c.draw
    let trailer := g.message ++ padTo 64 (Config.sign r.1 g.message)
    let c1 := { r.2 with ident := { r.2.ident with signing := none } }
    let c2 := ((c1.setEnt 0x6430 4 (ofLe (padTo 144 trailer))).setEnt 0x6430 3 0).setEntBit 0x6400 0 1 true
    let c3 := c2.emit 50 0x1204 (d16 (field g.message 26 2) ++ d16 (field g.message 28 2) ++ d32 (field g.message 30 4))
    let c4 := match c3.ident.waiting with
      | some w => { c3 with ident := { c3.ident with signing := some { w with by_ := c3.now + 983040 }, waiting := none } }
      | none => c3
    { s with core := c4, book := { s.book with export_ := none } }

def execExportSigned (s : State) : Out :=
  .next (match s.core.ident.signing with | some g => if g.purpose = 3 then s.exported else s | none => s)

end Sys2Proof.Machine
end

