-- ==== Sys2Proof/Machine/Housekeeping.lean ====
section
/-! DEFINITION. The housekeeping converter (R368 to R384). -/

namespace Sys2Proof.Machine

/-- Full scale of a channel in µV (R368). -/
def hkScale (ch : Nat) : Nat :=
  if ch < 32 then 1800000 else if ch < 48 then 3600000
  else match ch with
    | 50 | 51 | 53 | 54 | 56 => 3600000
    | 55 => 7200000
    | _ => 1800000

/-- The code of a voltage at a channel (R368). -/
def hkCode (ch microvolts : Nat) : Nat :=
  let fs := hkScale ch
  min 65535 ((2 * microvolts * 65536 + fs) / (2 * fs))

def stepChannel (s : Nat) : Nat := bits s 5 0
def stepCurrent (s : Nat) : Nat := bits s 7 6
def stepMark (s : Nat) : Bool := bit s 9

/-- The state of a sequence (R373): 0 idle, 1 pending, 2 running, 3 running with a trigger pending. -/
def Core.hkState (c : Core) (q : Nat) : Nat := c.ent (0x6210 + q) 5

/-- Field supply lost: HK32 to HK47 give no value (R362, R370). -/
def Core.fieldLost (c : Core) : Bool := c.ent 0x6121 0 = 0

/-- Brings 0x6200 up to date. -/
def Core.refreshHk (c : Core) : Core :=
  let st := fun q => c.hkState q
  c.setEnt 0x6200 0 (flagMask (
    ([0, 1, 2, 3].map (fun q => (q, decide (st q = 1 ∨ st q = 3)))) ++
    ([0, 1, 2, 3].map (fun q => (4 + q, decide (2 ≤ st q)))) ++
    [(8, !c.hk.urgent.isEmpty), (9, c.fieldLost)]))

/-- Starts a conversion slot on the first multiple of 4 ticks at or after now (R369). -/
def Core.hkSlot (c : Core) (kind : HkKind) (ch : Nat) : Core :=
  let wait := (4 - c.clock % 4) % 4
  { c with hk := { c.hk with slot := some ⟨kind, ch, c.now + wait, (c.clock + wait + 16) % 2 ^ 64⟩ } }

/-- The next slot: the rest of a step, an urgent conversion where one may go in, the next step, or the next run (R373,
R375). A run whose steps are done waits for its completion. -/
def Core.hkNext (c : Core) : Core :=
  if c.hk.slot.isSome then c
  else match c.hk.run with
    | some r =>
      match r.checked, c.hk.urgent with
      | some _, _ => c.hkSlot .value (stepChannel (r.steps.getD r.k 0))
      | none, u :: _ =>
        if !r.urgentUsed && 0 < r.k then
          ({ c with hk := { c.hk with run := some { r with urgentUsed := true } } }).hkSlot .urgent u
        else if r.k < r.steps.length then
          c.hkSlot (if stepCurrent (r.steps.getD r.k 0) = 0 then .value else .check) (stepChannel (r.steps.getD r.k 0))
        else c
      | none, [] =>
        if r.k < r.steps.length then
          c.hkSlot (if stepCurrent (r.steps.getD r.k 0) = 0 then .value else .check) (stepChannel (r.steps.getD r.k 0))
        else c
    | none =>
      match c.hk.urgent with
      | u :: _ => c.hkSlot .urgent u
      | [] =>
        match [0, 1, 2, 3].find? (fun q => c.hkState q = 1) with
        | none => c
        | some q =>
          let steps := (List.range (c.ent (0x6210 + q) 4)).map (fun k => c.ent (0x6214 + q) (k + 1))
          let s0 := steps.headD 0
          (({ c with hk := { c.hk with run := some ⟨q, steps, 0, none, false⟩ } }).setEnt (0x6210 + q) 5 2).hkSlot
            (if stepCurrent s0 = 0 then .value else .check) (stepChannel s0)

/-- A run whose first slot has not begun is pending again, where `f` holds of it: the choice of what starts is made at the
slot (R373, R375). -/
def Core.hkUnstart (c : Core) (f : HkRun → Bool) : Core :=
  match c.hk.run, c.hk.slot with
  | some r, some t =>
    if r.k = 0 && r.checked.isNone && c.now ≤ t.start && t.kind ≠ HkKind.urgent && f r then
      { (c.setEnt (0x6210 + r.q) 5 1) with hk := { c.hk with run := none, slot := none } }
    else c
  | _, _ => c

/-- A trigger of sequence `q` (R373): of those pending at a slot, the lowest-numbered starts. -/
def Core.hkTrigger (c : Core) (q : Nat) : Core :=
  let c := c.hkUnstart (fun r => q < r.q)
  let st := c.hkState q
  let c1 := if st = 0 then c.setEnt (0x6210 + q) 5 1
    else if st = 2 then c.setEnt (0x6210 + q) 5 3
    else (c.count (0x6210 + q) 7 1).firstInSecond 44 0x1002 q (d8 q)
  c1.hkNext.refreshHk

/-- Puts an entry into the buffer (R381): the writer never waits. -/
def Core.hkWrite (c : Core) (bytes : List Byte) : Core :=
  let w := c.ent 0x6220 1
  let c1 := if c.ent 0x6220 4 = 4096 then
      ((c.setEnt 0x6220 3 ((c.ent 0x6220 3 + 1) % 4096)).count 0x6220 5 1).firstInSecond 44 0x1003 0 []
    else c.setEnt 0x6220 4 (c.ent 0x6220 4 + 1)
  let c2 := { c1 with hk := { c1.hk with buffer := c1.hk.buffer.put (fun _ => 0) w (ofLe bytes) } }
  let c3 := c2.setEnt 0x6220 1 ((w + 1) % 4096)
  if w + 1 = 4096 then c3.wrapAdd 32 0x6220 2 1 else c3

/-- An entry of the buffer (R380). -/
def hkEntry (code ch : Nat) (opened noValue : Bool) (q : Nat) (urgent mark first last : Bool) (step run tick : Nat) :
    List Byte :=
  d16 code ++ d8 (ch % 64 + flagMask [(6, opened), (7, noValue)]) ++
    d8 (q % 4 + flagMask [(2, urgent), (3, mark), (4, first), (5, last)]) ++ d8 step ++ d8 0 ++ d16 run ++ leBytes 8 tick

/-- A mark entry (R380). -/
def Core.hkMark (c : Core) (v tick : Nat) : Core := c.hkWrite (hkEntry v 0 false false 0 false true false false 0 0 tick)

/-- The marks that waited for the slot to end. -/
def Core.hkMarks (c : Core) : Core :=
  c.hk.marks.foldl (fun (c : Core) (m : Nat × Nat) => c.hkMark m.1 m.2) { c with hk := { c.hk with marks := [] } }

/-- A check's finding about a channel (R378): open on the first check that finds it so, connected after two. -/
def Core.hkFound (c : Core) (ch code : Nat) (opened : Bool) : Core :=
  let was := c.entBit 0x6231 (ch + 1) 1
  let run := if opened then 0 else c.hk.connected.get (fun _ => 0) ch + 1
  let c1 := { c with hk := { c.hk with connected := c.hk.connected.put (fun _ => 0) ch run } }
  let is := if opened then true else if 2 ≤ run then false else was
  if is = was then c1
  else ((c1.setEntBit 0x6231 (ch + 1) 1 is).count 0x6233 (ch + 1) 1).emit 44 0x1001 (d8 ch ++ d16 code)

/-- A value slot's result (R379): latest code, flags and count; `opened` is the open-wire flag the result itself carries. -/
def Core.hkResult (c : Core) (ch code : Nat) (opened noValue : Bool) : Core :=
  let f := flagMask [(0, !noValue), (1, c.entBit 0x6231 (ch + 1) 1), (2, noValue)]
  let c1 := { c with hk := { c.hk with flagged := c.hk.flagged.put (fun _ => 0) ch (if opened then 1 else 0) } }
  ((c1.setEnt 0x6230 (ch + 1) code).setEnt 0x6231 (ch + 1) f).wrapAdd 16 0x6232 (ch + 1) 1 |>.reflResult ch

/-- A conversion slot completes with a voltage (R369 to R380). -/
def Core.hkConvert (c : Core) (microvolts : Nat) : Core :=
  match c.hk.slot with
  | none => c
  | some s =>
    let noValue := c.fieldLost && 32 ≤ s.channel && s.channel < 48
    let code := if noValue then 0 else hkCode s.channel microvolts
    let c0 := { c with hk := { c.hk with slot := none } }
    let c1 := match s.kind, c0.hk.run with
      | .urgent, _ =>
        let c' := (c0.hkResult s.channel code false noValue).hkWrite
          (hkEntry code s.channel false noValue 0 true false false false 0 0 s.sample)
        let c'' := { c' with hk := { c'.hk with urgent := c'.hk.urgent.tail } }
        (((c''.setEnt 0x6203 2 code).setEnt 0x6203 3 s.sample).setEnt 0x6203 4 (c''.ent 0x6231 (s.channel + 1))).setEnt
          0x6203 1 (if c''.hk.urgent.isEmpty then 0 else 1)
      | .check, some r =>
        let up := stepCurrent (r.steps.getD r.k 0) = 1
        let opened := !noValue && (if up then c0.ent 0x6202 1 ≤ code else code ≤ c0.ent 0x6202 2)
        let c' := if noValue then c0 else c0.hkFound s.channel code opened
        { c' with hk := { c'.hk with run := some { r with checked := some opened } } }
      | .value, some r =>
        let step := r.steps.getD r.k 0
        let c' := (c0.hkResult s.channel code (r.checked = some true) noValue).hkWrite
          (hkEntry code s.channel (r.checked = some true) noValue r.q false (stepMark step) (r.k = 0)
            (r.k + 1 = r.steps.length) r.k (c0.ent (0x6210 + r.q) 6) s.sample)
        { c' with hk := { c'.hk with run := some { r with k := r.k + 1, checked := none } } }
      | _, none => c0
    c1.hkMarks.hkNext.refreshHk

/-- The running sequence has spent its last slot. -/
def Core.hkRunDone (c : Core) : Bool :=
  match c.hk.run with
  | some r => c.hk.slot.isNone && r.steps.length ≤ r.k && r.checked.isNone
  | none => false

/-- A run completes (R373): its count, a held trigger, the chained sequence's trigger, and what comes next. -/
def Core.hkComplete (c : Core) : Core :=
  match c.hk.run with
  | none => c
  | some r =>
    let c1 := { c with hk := { c.hk with run := none } }
    let c2 := (c1.wrapAdd 32 (0x6210 + r.q) 6 1).setEnt (0x6210 + r.q) 5 (if c1.hkState r.q = 3 then 1 else 0)
    let next := (r.q + 1) % 4
    let c3 := if c2.ent (0x6210 + next) 1 = 5 then
        (if c2.hkState next = 0 then c2.setEnt (0x6210 + next) 5 1
         else (c2.count (0x6210 + next) 7 1).firstInSecond 44 0x1002 next (d8 next))
      else c2
    c3.hkNext.refreshHk

/-- Tc in ticks (R63). -/
def Core.tc (c : Core) : Nat := c.ent 0x1240 0 * 128

/-- A periodic or control-period trigger falls on this tick (R372). Timetable and chained triggers fire inside the
entry's and the completing run's own moments. -/
def Core.hkFires (c : Core) (q : Nat) : Bool :=
  c.phase = .ready && (match c.ent (0x6210 + q) 1 with
    | 2 => decide (c.clock % c.ent (0x6210 + q) 2 = 0)
    | 4 => decide ((c.clock + c.ent (0x6210 + q) 3) % c.tc = 0)
    | _ => false)

def execHkTrigger (q : Fin 4) (s : State) : Out := s.event (fun c => c.hkFires q) (fun c => c.hkTrigger q)

def hkTriggerAct (q v : Nat) : Act := coreAct (fun c =>
  if v ≠ 1 then (0x0301, c)
  else if c.ent (0x6210 + q) 1 = 0 then (0x0204, c.setEnt (0x6210 + q) 8 1)
  else (0, (c.setEnt (0x6210 + q) 8 0).hkTrigger q))

def execHkTriggerCommand (o : Origin) (q : Fin 4) (v : Byte) (s : State) : Out :=
  .next (s.serveWrite o (0x6210 + q) 8 (d8 v.toNat) (hkTriggerAct q v.toNat))

def execHkConversion (microvolts : Nat) (s : State) : Out :=
  s.event (fun c => match c.hk.slot with | some t => t.start + 244 ≤ c.now | none => false)
    (fun c => c.hkConvert microvolts)

def execHkRunComplete (s : State) : Out := s.event Core.hkRunDone Core.hkComplete

/-- Queues an urgent conversion (R375). One that arrives on the tick of a trigger takes the first slot. -/
def hkUrgentAct (ch : Nat) : Act := coreAct (fun c =>
  if 58 < ch then (0x0301, c)
  else if 4 ≤ c.hk.urgent.length then (0x0205, c.setEnt 0x6203 1 2)
  else
    let c1 := { (c.setEnt 0x6203 1 1) with hk := { c.hk with urgent := c.hk.urgent ++ [ch] } }
    (0, (c1.hkUnstart (fun _ => true)).hkNext.refreshHk))

def execHkUrgentRequest (o : Origin) (channel : Byte) (s : State) : Out :=
  .next (s.serveWrite o 0x6203 1 (d8 channel.toNat) (hkUrgentAct channel.toNat))

/-- A write of a mark (R380): it goes into the buffer at once, or at the end of the slot in progress. -/
def hkMarkAct (v : Nat) : Act := coreAct (fun c =>
  (0, if c.hk.slot.any (fun t => t.start ≤ c.now) then { c with hk := { c.hk with marks := c.hk.marks ++ [(v, c.clock)] } }
    else c.hkMark v c.clock))

def execHkMark (o : Origin) (v : Half) (s : State) : Out :=
  .next (s.serveWrite o 0x6222 0 (d16 v.toNat) (hkMarkAct v.toNat))

/-- The checks of R383 on a configuration: the check that fails first and its item. -/
def Cfg.hkRefusal (g : Cfg) : Option (Nat × Nat) :=
  [0, 1, 2, 3].findSome? (fun q =>
    let steps := (List.range (min 64 (g (0x6210 + q) 4))).map (fun k => (k, g (0x6214 + q) (k + 1)))
    let bad := steps.find? (fun e => 58 < stepChannel e.2 || stepCurrent e.2 = 3 ||
      (stepCurrent e.2 ≠ 0 && 48 ≤ stepChannel e.2))
    match bad with
    | some e => some (1, 0x40 * q + e.1)
    | none =>
      let trig := g (0x6210 + q) 1
      let period := g (0x6210 + q) 2
      let lead := g (0x6210 + q) 3
      if g (0x6210 + q) 4 = 0 || 64 < g (0x6210 + q) 4 ||
        (trig = 2 && (period < 1024 || period % 4 ≠ 0 || 4294967292 < period)) ||
        (trig = 4 && (lead < 244 || g 0x1240 0 * 128 < lead + 4)) then some (2, 0x40 * q) else none)

end Sys2Proof.Machine
end

