-- ==== Sys2Proof/Machine/FrontEnd.lean ====
section
/-! DEFINITION. Front-end control, the Timetable, Points and coexistence (R185 to R204). -/

namespace Sys2Proof.Machine

def Core.coex (c : Core) (k : Nat) : CoexSt := c.fe.coex.get (fun _ => CoexSt.init) k
def Core.setCoex (c : Core) (k : Nat) (p : CoexSt) : Core :=
  { c with fe := { c.fe with coex := c.fe.coex.put (fun _ => CoexSt.init) k p } }

/-- Whether a path's source is a port's receive side. -/
def Cfg.fromSide (g : Cfg) (p side : Nat) : Bool :=
  let e := g.source p
  (epKind e = 1 && side < 8 && epNum e = side) || (epKind e = 2 && 0x80 ≤ side && side < 0xFF && epNum e = side - 0x80)

/-- RFOUTs that a coexistence channel makes release zero (R202). -/
def Core.coexCuts (c : Core) (r : Nat) : Bool :=
  [0, 1].any (fun k => (c.coex k).cut && bit (c.ent (0x3260 + k) 2) r)

/-- Whether path `p` still drives RFOUT `r`: live, ramping, about to ramp up, or with what a ramp down left in the retimer
(R204). -/
def Core.drivesRfout (c : Core) (p r : Nat) : Bool :=
  c.cfg.configured p && (c.cfg.rfouts p).contains r &&
    (c.pe p 1 1 = psUp || c.pe p 1 1 = psLive || c.pe p 1 1 = psDown || (c.path p).armed ||
      ((c.path p).ramp.isSome && (c.sink r).due.any (fun d => d.path = p && (d.sample.i ≠ 0 || d.sample.q ≠ 0))))

/-- Whether the mode, or a sag, holds every transmit-related output released (R188, R356). -/
def Core.switchingHeld (c : Core) : Bool :=
  !(c.mode = mRun || c.mode = mCaution || c.mode = mShunt) || c.supply.forced || c.thermalDown

/-- A port whose RFOUT is held: at a hard mute at once, at a mode requested once the ramps down are through (R34, R188). -/
def Core.portHeld (c : Core) (t : Nat) : Bool :=
  c.modeHard || c.supply.forced || c.coexCuts (c.cfg.portRfout t) ||
    (c.switchingHeld && !allPaths.any (fun p => c.cfg.isTdd p && c.drivesRfout p (c.cfg.portRfout t)))

/-- The transmit windows at a port's ball toward which a path counts (R183). -/
def Core.portTx (c : Core) (t : Nat) : List (Int × Int) :=
  (allPaths.filter (fun p => c.cfg.configured p && c.cfg.isTdd p && (c.cfg.rfouts p).contains (c.cfg.portRfout t))).flatMap
    (fun p => (c.path p).counted)

/-- One window, with each it touches. -/
def joined (ws : List (Int × Int)) (w : Int × Int) : Int × Int :=
  ws.foldl (fun w v => if v.1 ≤ w.2 && w.1 ≤ v.2 then (min w.1 v.1, max w.2 v.2) else w) w

/-- Windows that touch are one (R183, R187). -/
def mergeWindows (ws : List (Int × Int)) : List (Int × Int) := ws.map (fun w => ws.foldl (fun w _ => joined ws w) w)

/-- Whether `x` lies in one of the windows, widened by `a` before and `b` after. -/
def within (ws : List (Int × Int)) (x a b : Int) : Bool := (mergeWindows ws).any (fun w => w.1 + a ≤ x && x < w.2 + b)

/-- Asserted state of FEC output `n` and of TRSW output `t`, and their levels at the ball (R186). -/
def Core.fecLevel (c : Core) (n : Nat) : Bool := c.ent (0x3220 + n) 7 = 1
def Core.fecOn (c : Core) (n : Nat) : Bool := c.fecLevel n != (c.ent (0x3220 + n) 5 = 1)
def Core.setFec (c : Core) (n : Nat) (on : Bool) : Core :=
  c.setEnt (0x3220 + n) 7 (if on != (c.ent (0x3220 + n) 5 = 1) then 1 else 0)
def Core.trswOn (c : Core) (t : Nat) : Bool := c.ent (0x3240 + t) 5 = 1

/-- Whether an FDD path drives RFOUT `r` (R204). -/
def Core.fddActive (c : Core) (r : Nat) : Bool := allPaths.any (fun p => !c.cfg.isTdd p && c.drivesRfout p r)

/-- How many ticks must pass before a sample leaves the ball of RFOUT `r`: 131 from the assertion of its FDD PA enables
(R204). -/
def Core.paLead (c : Core) (r : Nat) : Nat :=
  ((List.range 32).filter (fun n => c.ent (0x3220 + n) 1 = 3 && c.ent (0x3220 + n) 2 = r)).foldl (fun m n =>
    max m (if c.fecOn n then c.fe.fecAt.get (fun _ => 0) n + 131 - c.now else 132)) 0

/-- The Timetable intervals near `x` whose pattern word has bit `b` (R186, function 4). -/
def Core.patternWindows (c : Core) (b : Nat) (x : Int) : List (Int × Int) :=
  let g := c.cfg
  let per : Int := g.framePeriod
  let base := c.periodOf x
  let es := g.entriesInUse.zip g.intervals
  ([base - per, base, base + per].filter c.acts).flatMap (fun s =>
    (es.filter (fun e => bit (g 0x3212 (ttPattern e.1 + 1)) b)).map (fun e => (s + e.2.2.1, s + e.2.2.2)))

/-- Whether FEC output `n` is to be asserted on this tick, before the interlocks (R186 to R188, R202). -/
def Core.wantFec (c : Core) (n : Nat) : Bool :=
  let x : Int := c.clock
  let a := c.entS 16 (0x3220 + n) 3
  let r := c.entS 16 (0x3220 + n) 4
  let arg := c.ent (0x3220 + n) 2
  match c.ent (0x3220 + n) 1 with
  | 1 => !c.portHeld arg && within (c.portTx arg) x (a - 131) r
  | 2 =>
    if c.portHeld arg then c.fecOn n || (!c.trswOn arg && c.fe.trOff.get (fun _ => 0) arg + 131 ≤ c.now)
    else !within (c.portTx arg) x (r - 393) (a + 262)
  | 3 => !c.modeHard && !c.supply.forced && !c.coexCuts arg && c.fddActive arg
  | 4 => !(c.switchingHeld && c.ent (0x3220 + n) 6 = 1) && within (c.patternWindows arg x) x a r
  | 5 =>
    let s := c.periodOf x
    !(c.switchingHeld && c.ent (0x3220 + n) 6 = 1) &&
      within (([s, s + c.cfg.framePeriod].filter c.acts).map (fun s => (s, s + 491))) x a r
  | _ => false

/-- Whether TRSW output `t` is to be asserted on this tick. -/
def Core.wantTrsw (c : Core) (t : Nat) : Bool :=
  let x : Int := c.clock
  if c.portHeld t then c.trswOn t && c.now < c.fe.paOff.get (fun _ => 0) t + 131
  else within (c.portTx t) x (c.entS 16 (0x3240 + t) 3 - 262) (c.entS 16 (0x3240 + t) 4 + 131)

/-- Counts an edge that an interlock moves (R187): record 0x0808 for the first after each commit. -/
def Core.clip (c : Core) (n : Nat) (on : Bool) : Core :=
  if c.fe.clipped.contains n then c
  else
    let c1 := { c with fe := { c.fe with clipped := n :: c.fe.clipped } }.count (0x3220 + n) 8 1
    if c1.fe.clipRecorded then c1
    else ({ c1 with fe := { c1.fe with clipRecorded := true } }).emit 36 0x0808 (d8 n ++ d8 (if on then 1 else 0))

def Core.unclip (c : Core) (n : Nat) : Core :=
  { c with fe := { c.fe with clipped := c.fe.clipped.filter (· ≠ n) } }

/-- Sets FEC output `n`, noting when it was asserted, and when a port's PA enable last released. -/
def Core.applyFec (c : Core) (n : Nat) (on : Bool) : Core :=
  let c0 := (c.setFec n on).unclip n
  let c1 := if on then { c0 with fe := { c0.fe with fecAt := c0.fe.fecAt.put (fun _ => 0) n c0.now } } else c0
  if c.ent (0x3220 + n) 1 = 1 && !on then
    { c1 with fe := { c1.fe with paOff := c1.fe.paOff.put (fun _ => 0) (c.ent (0x3220 + n) 2) c.now } }
  else c1

/-- An edge of FEC output `n` with its interlock (R187): a TDD PA enable is held released while its TRSW is released, a
TDD LNA enable while its TRSW is asserted. -/
def Core.fecEdge (c : Core) (n : Nat) (on : Bool) : Core :=
  let f := c.ent (0x3220 + n) 1
  let arg := c.ent (0x3220 + n) 2
  let held := on && ((f = 1 && !c.trswOn arg) || (f = 2 && c.trswOn arg))
  if held then c.clip n on else c.applyFec n on

/-- An edge of TRSW output `t`: the enables that its new level forbids release with it (R187). -/
def Core.trswEdge (c : Core) (t : Nat) (on : Bool) : Core :=
  let c1 := (c.setEnt (0x3240 + t) 5 (if on then 1 else 0)).wrapAdd 32 (0x3240 + t) 7 1
  let c2 := if on then c1 else { c1 with fe := { c1.fe with trOff := c1.fe.trOff.put (fun _ => 0) t c1.now } }
  let forbidden := if on then 2 else 1
  c2.each (List.range 32) (fun c n =>
    if c.ent (0x3220 + n) 1 = forbidden && c.ent (0x3220 + n) 2 = t && c.fecOn n then (c.clip n false).applyFec n false
    else c)

/-- Whether an output's edge is due on this tick. -/
def Core.edgeDue (c : Core) (w : SwitchOut) (on : Bool) : Bool :=
  c.phase = .ready && (match w with
    | .fec n => c.wantFec n = on && c.fecOn n ≠ on
    | .trsw t => c.wantTrsw t = on && c.trswOn t ≠ on)

def execSwitchingEdge (w : SwitchOut) (assert : Bool) (s : State) : Out :=
  s.event (fun c => c.edgeDue w assert) (fun c => match w with
    | .fec n => c.fecEdge n assert
    | .trsw t => c.trswEdge t assert)

/-- A grant cuts or withholds a transmit window: its first is the episode of R179. The manual names no event code for a
grant: an open value. -/
def Core.grantCuts (c : Core) (k : Nat) : Core :=
  if (c.coex k).reported then c
  else
    let r := c.draw
    (r.2.setCoex k { r.2.coex k with reported := true }).yieldPromise 0xFF 3 5 (r.1 % 65536)

/-- A coexistence channel cuts the transmit window of path `p` that is at hand on this tick, by `started` for one in progress
(R203): it stays muted to its end on the masked RFOUTs, counts once, and is the grant's episode of R179. -/
def Core.coexWindow (c : Core) (k p : Nat) (hit : Int × Int → Bool) : Core :=
  match (c.txWindows p c.clock).find? hit with
  | some w =>
    let e := w.2 - c.cfg.txShift p
    if (c.path p).coexCut.contains (k, e) then c
    else
      let counts := !(c.path p).coexCut.any (fun x => x.2 = e)
      let c1 := c.modPath p (fun s => { s with coexCut := (k, e) :: s.coexCut.filter (fun x => decide ((c.clock : Int) - 65536 < x.2)) })
      (if counts then c1.count (pIdx p 0x29) 3 1 else c1).grantCuts k
  | none => c

/-- What the front end does on every tick beside its scheduled edges: PA enables release as soon as their RFOUT is held,
FDD PA enables follow their paths, POINTS pins move on their tick and changes not placed yet are placed, paths are counted 393
ticks ahead of a window (R183), and coexistence cuts the windows that begin under it (R203). A slew moves F by at most one tick
ahead of each period start (R195). -/
def Core.frontEndTick (c : Core) : Core :=
  let x : Int := c.clock
  let c1 := c.each (List.range 32) (fun c n =>
    let f := c.ent (0x3220 + n) 1
    let arg := c.ent (0x3220 + n) 2
    if f = 1 && c.fecOn n && c.portHeld arg then c.applyFec n false
    else if f = 3 && c.fecOn n ≠ c.wantFec n then c.applyFec n (c.wantFec n)
    else c)
  let c2 := c1.each [0, 1] (fun c k =>
    let p := c.points k
    let c' := match p.pinAt with
      | some t => if atOrBefore t c.clock then c.setPoints k { p with pin := p.pinTo, pinAt := none } else c
      | none => c
    if p.pending.isSome && p.changeAt.isNone then c'.pointsPlace k else c')
  let c3 := c2.each allPaths (fun c p =>
    if c.cfg.configured p && c.cfg.isTdd p then
      let ahead := (c.txWindows p (x + 393)).filter (fun w => w.1 = x + 393)
      let live := c.pe p 1 1 = psUp || c.pe p 1 1 = psLive
      let c' := if ahead.isEmpty then c else c.modPath p (fun s => { s with
        counted := (if live then ahead else []) ++ s.counted.filter (fun w => decide (x - 4096 < w.2)) })
      c'.each ([0, 1].filter (fun k => (c.coex k).cut && (c.cfg.rfouts p).any (fun r => bit (c.ent (0x3260 + k) 2) r)))
        (fun c k => c.coexWindow k p (fun w => w.1 = x))
    else c)
  if c3.fe.slew16 ≠ 0 && c3.ent 0x3202 0 = 3 && c3.ttRunning && c3.nextPeriod (x + 1) = x + 2 then
    let step := clampI (-16) 16 c3.fe.slew16
    { c3 with fe := { c3.fe with frame16 := c3.fe.frame16 + step, slew16 := c3.fe.slew16 - step } }
  else c3

/-- The period of the donor's even radio frames, 20 ms, in 1/16 tick (R192), and a difference modulo it. -/
def frame16Period : Int := 157286400
def frameWrap (x : Int) : Int := (x + frame16Period / 2) % frame16Period - frame16Period / 2

/-- A period starts (R190, R194 to R196): a jump replaces F, and the TDD gate opens. -/
def Core.periodStart (c : Core) : Core :=
  let s := c.periodOf c.clock
  match c.fe.jump with
  | some j =>
    let d := openRound (frameWrap (j - c.fe.frame16)) 16
    ({ c with fe := { c.fe with frame16 := j, jump := none, lastStart := some s } }).emit 36 0x0803 (d8 0xFF ++ dS32 d)
  | none =>
    let c1 := { c with fe := { c.fe with
      lastStart := some s, entry := none, gateOpen := c.fe.gateOpen || c.ent 0x3202 0 = 3 } }
    let c2 := (c1.setEnt 0x3203 1 (wrapClock s)).wrapAdd 32 0x3203 3 1
    (c2.twinSend 0x04 (dS64 c2.fe.frame16 ++ d8 (c2.ent 0x3202 0))).refreshTdd

/-- A period has begun that is not under way yet: F may move between a period's start and the next (R194). -/
def Core.periodDue (c : Core) : Bool :=
  let s := c.periodOf c.clock
  let fresh := match c.fe.lastStart with | some l => decide (l + (c.cfg.framePeriod : Int) / 2 ≤ s) | none => s = c.clock
  c.awake && c.cfg.framePeriod ≠ 0 && ((c.acts s && fresh) || (c.fe.jump.isSome && s = c.clock))

def execPeriodStart (s : State) : Out := s.event Core.periodDue Core.periodStart

/-- An active window of path `p` begins at an entry (R183, R197). -/
def Core.windowBegins (c : Core) (p : Nat) : Core :=
  let e := c.windowEnd p c.clock
  let live := c.entBit 0x110A 0 p
  let hold := c.ent 0x3202 0 = 4
  let out := (c.cfg.losOf p).filter (fun l => !c.entBit (0x1210 + l) 3 0)
  let c1 := if live then c.count (pIdx p 0x29) 1 1 else c
  let c2 := if live && hold then c1.count (pIdx p 0x29) 4 1 else c1
  let c3 := if c.pe p 1 2 = 0x0200 then c2.count (pIdx p 0x29) 5 1 else c2
  if !(c.cfg.rfouts p).isEmpty && !out.isEmpty then
    ((c3.modPath p (fun s => { s with loCut := e })).count (pIdx p 0x29) 2 1).emit 36 0x0804
      (d8 p ++ d8 (out.headD 0) ++ d32 (c.ent 0x3203 3))
  else c3

/-- The tick of a Timetable entry (R190): its pattern word, its triggers, and the windows that begin. -/
def Core.timetableEntry (c : Core) (i : Nat) : Core :=
  let e := c.cfg.entriesInUse.getD i 0
  let c1 := { c with fe := { c.fe with entry := some i, pattern := ttPattern e } }
  let c2 := c1.each [0, 1, 2, 3] (fun c q =>
    if bit (ttTriggers e) q && c.ent (0x6210 + q) 1 = 3 then c.hkTrigger q else c)
  c2.each allPaths (fun c p =>
    if c.cfg.configured p && c.cfg.isTdd p && c.cfg.dirOf p = ttState e then c.windowBegins p else c)

/-- The entry in force by the clock is not yet the one acted on. -/
def Core.entryDue (c : Core) (i : Nat) : Bool :=
  let es := c.cfg.entriesInUse
  let s := c.periodOf c.clock
  let ends : Int := if i + 1 < es.length then s + ttTick (es.getD (i + 1) 0) else s + c.cfg.framePeriod
  c.awake && c.acts s && i < es.length && s + ttTick (es.getD i 0) ≤ c.clock && (c.clock : Int) < ends &&
    c.fe.entry ≠ some i && !c.periodDue

def execTimetableEntry (i : Fin 64) (s : State) : Out := s.event (fun c => c.entryDue i) (fun c => c.timetableEntry i)

/-- A measured frame start less the predicted one, in 1/16 tick, modulo the frame (R194). -/
def Core.burstError (c : Core) (position : Int) : Int :=
  frameWrap (position - c.fe.jump.getD c.fe.frame16)

/-- A burst counts as missed (R193). -/
def Core.burstMissed (c : Core) : Core :=
  let c1 := c.count 0x3203 7 1
  match c1.ent 0x3202 0 with
  | 2 => c1.setFrameState (if c1.fe.everSync then 5 else 1)
  | 3 =>
    let n := c1.fe.missedRun + 1
    let c2 := { c1 with fe := { c1.fe with missedRun := n } }
    if c2.ent 0x3201 7 ≤ n then
      ({ c2 with fe := { c2.fe with nearRun := 0, far := none, missedRun := 0 } }).setFrameState 4
    else c2
  | _ => { c1 with fe := { c1.fe with nearRun := 0, far := none } }

/-- Begins verification at a measured frame start. -/
def Core.verifyFrom (c : Core) (b : Burst) : Core :=
  ({ c with fe := { c.fe with
    frame16 := b.position, frameNumber := b.frameNumber.toNat, verified := 0, jump := none, slew16 := 0 } }).setFrameState 2

/-- A detected burst (R192 to R195). -/
def Core.burst (c : Core) (b : Burst) : Core :=
  let cell := b.cell.toNat
  if c.ent 0x3201 4 ≠ 0xFFFF && c.ent 0x3201 4 ≠ cell then
    (if c.ent 0x3202 0 = 1 || c.ent 0x3202 0 = 5 then c else c.burstMissed)
  else
    let err := c.burstError b.position
    let c1 := ((c.count 0x3203 6 1).setEnt 0x3203 4 cell).setEnt 0x3203 5 b.frameNumber.toNat
    match c1.ent 0x3202 0 with
    | 2 =>
      if withinI err 256 then
        let n := c1.fe.verified + 1
        let c2 := { c1 with fe := { c1.fe with verified := n } }
        if c2.ent 0x3201 6 ≤ n then ({ c2 with fe := { c2.fe with missedRun := 0 } }).setFrameState 3 else c2
      else c1.setFrameState (if c1.fe.everSync then 5 else 1)
    | 3 =>
      if withinI err 1024 then
        { (c1.setS 32 0x3203 2 err) with fe := { c1.fe with
            frame16 := c1.fe.frame16 + openRound err 8, missedRun := 0 } }
      else ((c1.count 0x3203 8 1).firstInSecond 36 0x0802 0xFF (d8 0xFF ++ dS32 err)).burstMissed
    | 4 =>
      if withinI err 7856 then
        let n := c1.fe.nearRun + 1
        let c2 := { c1 with fe := { c1.fe with nearRun := n, far := none } }
        if 2 ≤ n then
          (({ c2 with fe := { c2.fe with slew16 := err, missedRun := 0 } }).setFrameState 3).emit 36 0x0803
            (d8 0xFF ++ dS32 (openRound err 16))
        else c2
      else
        let apart := match c1.fe.far with
          | some q => withinI (frameWrap (b.position - q)) 256
          | none => false
        if apart then
          ({ c1 with fe := { c1.fe with 
            jump := some b.position, frameNumber := b.frameNumber.toNat, far := none, verified := 0, slew16 := 0 } }).setFrameState 2
        else { c1 with fe := { c1.fe with far := some b.position, nearRun := 0 } }
    | _ => (c1.verifyFrom b).acquiring 3

/-- The donor search runs (R192). -/
def Core.searching (c : Core) : Bool :=
  c.awake && c.cfg.timingSource = 1 && c.ent 0x3202 0 ≠ 0 && c.cfg.configured (c.ent 0x1223 4)

/-- The time from one expected burst to the next (R193): 5 ms for code 0 of 0x3201.05, doubled for each further code. -/
def Core.burstPeriod (c : Core) : Nat := 5 * ms * 2 ^ (c.ent 0x3201 5)

/-- Notes an expected burst at this instant. -/
def Core.burstNow (c : Core) : Core := { c with fe := { c.fe with burstAt := c.now } }

def execSyncBurstDetected (b : Burst) (s : State) : Out := s.event Core.searching (fun c => (c.burst b).burstNow)
def execSyncBurstMissed (s : State) : Out :=
  s.event (fun c => c.searching && 2 ≤ c.ent 0x3202 0 && c.ent 0x3202 0 ≤ 4 && c.fe.burstAt + c.burstPeriod ≤ c.now)
    (fun c => c.burstMissed.burstNow)
def execFrameHoldoverExpiry (s : State) : Out :=
  s.event (fun c => c.ent 0x3202 0 = 4 && (match c.fe.holdSince with | some t => decide (t + c.holdLimit ≤ c.now) | none => false))
    (fun c => c.setFrameState 5)

/-- One expected burst measured on both branches of pair `k` (R199, R201). -/
def Core.pointsBurst (c : Core) (k : Nat) (a b : Option Int) : Core :=
  let i := 0x3250 + k
  let c1 := (c.setCdb i 10 a).setCdb i 11 b
  let p := c1.points k
  let missA := if a.isNone && b.isSome then p.missA + 1 else 0
  let missB := if b.isNone && a.isSome then p.missB + 1 else 0
  let goodA := if a.isSome then p.goodA + 1 else 0
  let goodB := if b.isSome then p.goodB + 1 else 0
  let downA := c1.branchDown (c1.ent i 1)
  let downB := c1.branchDown (c1.ent i 2)
  let p1 := { p with
    missA, missB, goodA := if downA then 0 else goodA, goodB := if downB then 0 else goodB,
    lostA := downA || 8 ≤ missA || (p.lostA && goodA < 8), lostB := downB || 8 ≤ missB || (p.lostB && goodB < 8) }
  let c2 := (c1.setPoints k p1).pointsFall k
  let selected := c2.ent i 9
  if p1.lostA || p1.lostB then c2
  else
    let p1 := c2.points k
    match a, b with
    | some la, some lb =>
      let d := if selected = 0 then lb - la else la - lb
      if c2.cdb i 5 < d then
        if c2.ent i 6 ≤ p1.wins + 1 then c2.pointsPend k (1 - selected)
        else c2.setPoints k { p1 with wins := p1.wins + 1 }
      else c2.setPoints k { p1 with wins := 0 }
    | _, _ => c2.setPoints k { p1 with wins := 0 }

def execPointsBurst (k : Fin 2) (levelA levelB : Option Int) (s : State) : Out :=
  s.event (fun c => c.awake && c.ent (0x3250 + k) 3 = 2 && c.ent (0x3250 + k) 1 < 8 &&
      (c.ent 0x3202 0 = 3 || c.ent 0x3202 0 = 4)) (fun c => c.pointsBurst k levelA levelB)

/-- The branch of a pair becomes `br` with the samples from tick `t` on (R80, R200). -/
def Core.pointsSelect (c : Core) (k br t : Nat) : Core :=
  let i := 0x3250 + k
  if c.ent i 9 = br then c
  else
    (((c.setPoints k { c.points k with since := some t, was := c.ent i 9 }).setEnt i 9 br).count i 12
      1).refreshOverload.refreshPaths

/-- A tick of an option has come. -/
def Core.clockReached (c : Core) (d : Option Nat) : Bool := match d with | some t => atOrBefore t c.clock | none => false

/-- A STANDBY's pair on its ticks (R260, R263): the ACTIVE's change takes effect, and its own pending change is compared. -/
def Core.pointsStandby (c : Core) (k : Nat) : Core :=
  let p := c.points k
  let c1 := match p.follow with
    | some (t, br) => if atOrBefore t c.clock then
        (c.setPoints k { p with follow := none }).pointsSelect k br t else c
    | none => c
  match p.pending with
  | some br => if c.clockReached p.changeAt then
      (c1.setPoints k { c1.points k with pending := none, changeAt := none }).compare 8 k (c1.ent (0x3250 + k) 9 = br)
        (c1.ent (0x3250 + k) 9) br
    else c1
  | none => c1

/-- The pending branch takes effect (R200). -/
def Core.pointsChange (c : Core) (k : Nat) : Core :=
  if c.isStandby && c.paired then c.pointsStandby k
  else
    let p := c.points k
    match p.pending with
    | none => c
    | some br =>
      let i := 0x3250 + k
      let c1 := (c.setPoints k { p with pending := none, changeAt := none }).emit 36 0x0805
        (d8 k ++ d8 br ++ d16 (c.ent i 10) ++ d16 (c.ent i 11))
      c1.pointsSelect k br (p.changeAt.getD c.clock)

def execPointsChange (k : Fin 2) (s : State) : Out :=
  s.event (fun c => c.clockReached (c.points k).changeAt || c.clockReached ((c.points k).follow.map Prod.fst))
    (fun c => c.pointsChange k)

/-- The paths bound to the RFOUTs of a coexistence channel's mask. -/
def Core.coexPaths (c : Core) (k : Nat) : List Nat :=
  allPaths.filter (fun p => c.cfg.configured p && (c.cfg.rfouts p).any (fun r => bit (c.ent (0x3260 + k) 2) r))

/-- A request is seen and decided (R202): the masked RFOUTs release zero from this tick; a window in progress is cut. -/
def Core.coexRequest (c : Core) (k : Nat) : Core :=
  let st := c.coex k
  let c1 := (c.setCoex k { st with cut := true, decidedAt := c.now, grantAt := some (c.now + 393), resumeAt := none, reported := false }).setEnt
    (0x3260 + k) 4 1
  let c2 := c1.each (c1.coexPaths k) (fun c p =>
    if c.cfg.isTdd p then c.coexWindow k p (fun w => decide (w.1 ≤ c.clock) && decide ((c.clock : Int) < w.2))
    else c.each (c.cfg.rfouts p) (fun c o => if bit (c.ent (0x3260 + k) 2) o then c.setFade p o none else c))
  c2.each (List.range 32) (fun c n =>
    let f := c.ent (0x3220 + n) 1
    if (f = 1 && c.coexCuts (c.cfg.portRfout (c.ent (0x3220 + n) 2))) || (f = 3 && c.coexCuts (c.ent (0x3220 + n) 2)) then
      (if c.fecOn n then c.applyFec n false else c)
    else c)

def execCoexRequest (k : Fin 2) (s : State) : Out :=
  s.event (fun c => c.phase = .ready && c.ent (0x3260 + k) 1 = 1 && (c.ent (0x3260 + k) 4 = 0 || c.ent (0x3260 + k) 4 = 3))
    (fun c => c.coexRequest k)

def Core.coexGrant (c : Core) (k : Nat) : Core :=
  let st := c.coex k
  (((c.setCoex k { st with grantAt := none, grantedAt := c.now, gnt := true, overdue := false }).setEnt (0x3260 + k) 4
    2).count (0x3260 + k) 5 1).setEntBit 0x3200 0 (6 + k) true

def execCoexGrant (k : Fin 2) (s : State) : Out :=
  s.event (fun c => c.ent (0x3260 + k) 4 = 1 && c.reached (c.coex k).grantAt) (fun c => c.coexGrant k)

/-- A fall of the request is seen (R202, R203): a grant falls, or a grant not yet given is cancelled. -/
def Core.coexRelease (c : Core) (k : Nat) : Core :=
  let st := c.coex k
  let c1 := (c.setCoex k { st with grantAt := none, gnt := false, resumeAt := some (c.now + 393) }).setEnt (0x3260 + k) 4 3
  let c2 := c1.setEntBit 0x3200 0 (6 + k) false
  if c.ent (0x3260 + k) 4 = 2 then c2.setEnt (0x3260 + k) 7 (min (2 ^ 32 - 1) (c.now - st.grantedAt)) else c2

def execCoexRelease (k : Fin 2) (s : State) : Out :=
  s.event (fun c => c.ent (0x3260 + k) 4 = 1 || c.ent (0x3260 + k) 4 = 2) (fun c => c.coexRelease k)

/-- Transmission may resume (R203): FDD paths with the ramp of the release stage, no sooner than their PA enables allow (R204);
a TDD path at the next window, for those that began under the grant stay cut. -/
def Core.coexResume (c : Core) (k : Nat) : Core :=
  let c1 := (c.setCoex k { c.coex k with cut := false, resumeAt := none }).setEnt (0x3260 + k) 4 0
  c1.each (c1.coexPaths k) (fun c p =>
    if c.cfg.isTdd p then c
    else c.each (c.cfg.rfouts p) (fun c o =>
      if bit (c.ent (0x3260 + k) 2) o then c.setFade p o (some ⟨true, 0, (c.clock + c.paLead o) % 2 ^ 64⟩) else c))

def execCoexResume (k : Fin 2) (s : State) : Out :=
  s.event (fun c => c.ent (0x3260 + k) 4 = 3 && c.reached (c.coex k).resumeAt) (fun c => c.coexResume k)

def execCoexGrantOverdue (k : Fin 2) (s : State) : Out :=
  s.event (fun c => c.ent (0x3260 + k) 4 = 2 && !(c.coex k).overdue &&
      (c.coex k).grantedAt + c.ent (0x3260 + k) 3 * ms < c.now)
    (fun c => ((c.setCoex k { c.coex k with overdue := true }).count (0x3260 + k) 6 1).emit 36 0x0807
      (d8 k ++ d32 (c.now - (c.coex k).grantedAt)))

/-- The windows of a port as a configuration makes them, in ticks of the period: transmit and receive (R183). -/
def Cfg.portWindows (g : Cfg) (t : Nat) : List (Int × Int) × List (Int × Int) :=
  let paths := allPaths.filter (fun p => g.configured p && g.isTdd p)
  (((paths.filter (fun p => (g.rfouts p).contains (g.portRfout t))).flatMap (fun p =>
      (g.windows (g.dirOf p)).map (fun w => ((w.1 : Int) + g.txShift p, (w.2 : Int) + g.txShift p)))),
   ((paths.filter (fun p => g.fromSide p (g.portSide t))).flatMap (fun p =>
      (g.windows (g.dirOf p)).map (fun w => ((w.1 : Int) - 3, (w.2 : Int) - 3)))))

/-- The smallest turn-round at a port (R185); 0 where windows overlap, none where the port has no pair of windows. -/
def Cfg.turnRound (g : Cfg) (t : Nat) : Option Nat :=
  let w := g.portWindows t
  let per : Int := g.framePeriod
  let gaps := w.1.flatMap (fun tx => w.2.flatMap (fun rx =>
    let a := (tx.1 - rx.2) % per
    let b := (rx.1 - tx.2) % per
    if a + (tx.2 - tx.1) + b + (rx.2 - rx.1) = per then [a.toNat, b.toNat] else [0]))
  gaps.min?

/-- Whether a commit from one configuration to another needs a period start (check 1 of R191). -/
def frontEndChanges (old new : Cfg) : Bool :=
  old 0x3210 1 ≠ new 0x3210 1 ||
  (List.range 64).any (fun i => old 0x3211 (i + 1) ≠ new 0x3211 (i + 1)) ||
  (List.range 16).any (fun i => old 0x3212 (i + 1) ≠ new 0x3212 (i + 1)) ||
  [0, 1, 2, 3].any (fun t => old.portRfout t ≠ new.portRfout t || old.portSide t ≠ new.portSide t) ||
  allPaths.any (fun p => old.isTdd p ≠ new.isTdd p)

/-- Whether the Timetable itself changes (R190). -/
def timetableChanges (old new : Cfg) : Bool :=
  old 0x3210 1 ≠ new 0x3210 1 ||
  (List.range 64).any (fun i => old 0x3211 (i + 1) ≠ new 0x3211 (i + 1)) ||
  (List.range 16).any (fun i => old 0x3212 (i + 1) ≠ new 0x3212 (i + 1))

/-- Checks 2 to 9 of R191: the check that fails first and its item. -/
def Cfg.frontEndRefusal (g : Cfg) : Option (Nat × Nat) :=
  let per := g.framePeriod
  let es := g.entriesInUse
  let ticks := es.map ttTick
  let tdd := allPaths.filter (fun p => g.configured p && g.isTdd p)
  let ports := [0, 1, 2, 3].filter (fun t => g.portRfout t ≠ 0xFF || g.portSide t ≠ 0xFF)
  let sideRole := fun (s : Nat) => if s < 8 then g 0x2800 (s + 1) else if s = 0x80 || s = 0x81 then
      (if g (0x3250 + (s - 0x80)) 1 < 8 then g 0x2800 (g (0x3250 + (s - 0x80)) 1 + 1) else 0) else 0
  let sides := fun (s : Nat) => if s < 8 then [s] else if s = 0x80 || s = 0x81 then
      [g (0x3250 + (s - 0x80)) 1, g (0x3250 + (s - 0x80)) 2] else []
  let timetable : Option (Nat × Nat) :=
    if per = 0 then none
    else if !(245760 ≤ per && 9830400 % per = 0) then some (2, 0xFF)
    else if ticks.head? ≠ some 0 then some (2, 0)
    else match ((List.range es.length).find? (fun i =>
        per ≤ ticks.getD i 0 || (0 < i && ticks.getD i 0 ≤ ticks.getD (i - 1) 0) || 3 < ttState (es.getD i 0))) with
      | some i => some (2, i)
      | none =>
        if !tdd.isEmpty && ((g.windows 0).isEmpty || (g.windows 1).isEmpty) then some (2, 0xFF) else none
  let checks : List (Option (Nat × Nat)) := [
    timetable,
    (tdd.find? (fun _ => per = 0 || g.timingSource = 0)).map (fun p => (3, p)),
    (if g.timingSource = 1 then
      let p := g 0x1223 4
      let half : Int := 4 * (rateHz10 (g.rate p) : Int) / 10
      let width : Int := match g 0x3201 2 with | 0 => 180000 | 1 => 360000 | _ => 46500
      let off := sInt 32 (g 0x3201 3)
      if p < 16 && g.configured p && (off + width ≤ half && -half ≤ off - width) then none else some (4, p)
    else none),
    (match ports.find? (fun t =>
        let r := g.portRfout t
        let s := g.portSide t
        !(r < 8) || sideRole s = 0 || g 0x2801 (r + 1) ≠ sideRole s ||
        ports.any (fun u => u ≠ t && (g.portRfout u = r || (sides (g.portSide u)).any (sides s).contains))) with
      | some t => some (5, t)
      | none => (tdd.find? (fun p =>
          (g.rfouts p).any (fun r => !ports.any (fun t => g.portRfout t = r)) ||
          (g.offAir p && !ports.any (fun t => g.fromSide p (g.portSide t))))).map (fun p => (5, p))),
    ([0, 1, 2, 3].find? (fun t => match g.turnRound t with | some n => n < 393 | none => false)).map (fun t => (6, t)),
    ((List.range 32).find? (fun n =>
      let f := g (0x3220 + n) 1
      let a := g (0x3220 + n) 2
      !(match f with
        | 0 => a = 0
        | 1 | 2 => a < 4
        | 3 => a < 8
        | 4 => a < 32
        | _ => a = 0) || ((f = 1 || f = 3) && g (0x3220 + n) 5 = 1))).map (fun n => (7, n)),
    (match [0, 1].find? (fun k =>
        let a := g (0x3250 + k) 1
        let b := g (0x3250 + k) 2
        let used := a ≠ 0xFF || b ≠ 0xFF
        let other := [g (0x3250 + (1 - k)) 1, g (0x3250 + (1 - k)) 2]
        (used && (!(a < 8) || !(b < 8) || a = b || g 0x2800 (a + 1) ≠ g 0x2800 (b + 1) || other.contains a ||
          other.contains b)) ||
        (used && g (0x3250 + k) 3 = 2 && (g.timingSource ≠ 1 ||
          !g.intervals.any (fun t => t.1 = 2 && 1024 + t.2.1 ≤ t.2.2))) ||
        (List.range 8).any (fun r => bit (g (0x3260 + k) 2) r && g 0x2801 (r + 1) = 0)) with
      | some k => some (8, k)
      | none => none),
    ([0, 1].find? (fun k =>
      let m := g (0x3110 + k) 1
      let r := g (0x3110 + k) 2
      m ≠ 0xFF && (!(m < 8) || g 0x2800 (m + 1) ≠ 3 || !(r < 8) || r = g (0x3110 + (1 - k)) 2))).map (fun k => (9, k))]
  checks.findSome? id

end Sys2Proof.Machine
end

