-- ==== Sys2Proof/Machine/Paths.lean ====
section
/-! DEFINITION. Band paths (R67 to R83, R92 to R114): from the words of a receive converter through the path's stages to
the retimers, and from the retimers to the sinks. -/

namespace Sys2Proof.Machine

/-- A path meets the synchronising resets ordered for its birth tick or before (R105). -/
def Core.meetResets (c : Core) (p birth : Nat) : Core :=
  let s := c.path p
  let due := s.resets.filter (fun r => atOrBefore r.1 birth)
  if due.isEmpty then c
  else
    let s1 := due.foldl (fun s r => PathSt.clear c.cfg p r.2 s)
      { s with resets := s.resets.filter (fun r => !atOrBefore r.1 birth) }
    let c1 := c.setPath p s1
    if due.any (fun r => r.2 = 5) then c1.setPe p 9 5 0 else c1

/-- Counts saturations of channel or transmit sections (R96): the counter, and record 0x0404 with the window's count. -/
def Core.sectSaturate (c : Core) (p sub n : Nat) : Core :=
  if n = 0 then c else (c.count (pIdx p 8) sub n).tallyMs (2 + p) 0x0404 [] n

/-- The birth tick from which a ramp up runs (R35): that on which the last gate was met. A TDD path whose last gate is met
within an active window, not on its first tick, waits for the window's end (R196); an FDD path's first sample leaves the
ball no earlier than 131 ticks after the PA enables of its RFOUTs assert (R204). -/
def Core.rampFrom (c : Core) (p : Nat) : Nat :=
  let met := (c.path p).gateAt.getD c.clock
  if c.cfg.isTdd p then
    match c.windowEnd p met with
    | some e => if c.inWindow p ((met : Int) - 1) && c.windowEnd p ((met : Int) - 1) = some e then (e % (2 ^ 64 : Nat)).toNat else met
    | none => met
  else
    (c.cfg.rfouts p).foldl (fun m r =>
      let left := c.paLead r
      if left = 0 then m else max m (c.clock + (left - (c.cfg.latency p - c.cfg.tRx p)))) met

/-- A muted path whose gates are all met begins its ramp (R35, R83): record 0x0302, its bit of 0x110A, its Guard conditions
(R161, R164). -/
def Core.beginRamp (c : Core) (p tick : Nat) : Core :=
  let s := c.path p
  let k := match s.ramp with | some ⟨false, k⟩ => if c.pe p 1 1 = psDown then 64 - min 64 k else 0 | _ => 0
  let c0 := c.cancGoLive p
  let c1 := ((c0.setEntBit 0x110A 0 p true).setPe p 1 1 psUp).emit (2 + p) 0x0302 (d16 0)
  let c2 := c1.modPath p (fun s => { s with
    ramp := some ⟨true, k⟩, rampTick := some tick, armed := false })
  let c3 := if c.cfg.needsCeiling p then c2.setPe p 0x20 4 1 else c2
  c3.squelchEntry p

/-- A path goes live: its ramp begins now, or with the first sample born on the tick that R196 and R204 set. -/
def Core.goLive (c : Core) (p : Nat) : Core :=
  let t := c.rampFrom p
  if atOrBefore t c.clock then c.beginRamp p t
  else c.modPath p (fun s => { s with armed := true, rampTick := some t })

def Core.mayGoLive (c : Core) (p : Nat) : Bool :=
  c.phase = .ready && c.cfg.configured p && (c.pe p 1 1 = psMuted || c.pe p 1 1 = psDown) && c.muteReasons p = 0 &&
    (c.path p).canc.phase = 0

/-- What the first valid sample at a path's output does (R35, R107): it meets the filter gate, and where that was the last one
the ramp starts with it. -/
def Core.settleAt (c : Core) (p b : Nat) : Core :=
  if !bit (c.pe p 1 2) 6 || c.pe p 9 1 ≠ 0 then c
  else
    let c1 := (c.refreshPath p).modPath p (fun s => { s with gateAt := s.gateAt.map (fun _ => b) })
    if c1.mayGoLive p then c1.goLive p else c1

/-- A ramp that waits for its tick begins with the first sample born there. -/
def Core.armedRamp (c : Core) (p b : Nat) : Core :=
  let s := c.path p
  match s.rampTick with
  | some t => if s.armed && atOrBefore t b && c.mayGoLive p then c.beginRamp p t else c
  | none => c

/-- The weight of the requested-mute ramp at the output point, and the weight toward the sinks, for a sample born at `b`
(R83, R107, R117, R253). A hard mute acts at the sinks, and samples computed while muted are zero there. -/
def Core.weights (c : Core) (p b : Nat) : Nat × Nat :=
  let s := c.path p
  let st := c.pe p 1 1
  let started := match s.rampTick with | some t => atOrBefore t b | none => true
  match s.ramp with
  | some ⟨true, k⟩ => if st = psUp then (if started then (wIn k, wIn k) else (0, 0)) else (65536, 0)
  | some ⟨false, k⟩ => (wOut k, if st = psDown then wOut k else 0)
  | none => (65536, if st = psLive then 65536 else 0)

/-- The ramp's next index after a sample born at `b`. -/
def Core.rampOn (c : Core) (p b : Nat) : Core :=
  let s := c.path p
  let started := match s.rampTick with | some t => atOrBefore t b | none => true
  match s.ramp with
  | some ⟨up, k⟩ => if (!up || started) && k < 64 then c.setPath p { s with ramp := some ⟨up, k + 1⟩ } else c
  | none => c

/-- A requested ramp placed by an activation tick begins with the output sample born 64 samples before it (R107). -/
def Core.placedRamp (c : Core) (p b : Nat) : Core :=
  let st := c.pe p 1 1
  match (c.path p).placed with
  | some t =>
    if !atOrBefore t (b + 64 * tsOf (c.cfg.rate p)) then c
    else if st = psLive || st = psUp then
      (c.rampDown p 0x0040).modPath p (fun s => { s with placed := none })
    else c.modPath p (fun s => { s with placed := none })
  | none => c

/-- Runs `f` with the values that the last commit replaced on path `p`. -/
def Core.underOld (c : Core) (p : Nat) (f : Core → Core) : Core :=
  match (c.path p).before with
  | none => f c
  | some (_, old) =>
    let put := fun (c : Core) (l : Tab Nat) => { c with dict := l.foldl (fun d e => Tab.put entryDefault d e.1 e.2) c.dict }
    let new := old.map (fun e => (e.1, c.dict.get entryDefault e.1))
    put (f (put c old)) new

/-- The first sample born at or after the activation tick has come: the path computes with the values in force. -/
def Core.dropBefore (c : Core) (p : Nat) : Core :=
  let c1 := c.modPath p (fun s => { s with before := none })
  (if c1.cfg.configured p then c1 else c1.stopPath p).refreshPath p

/-- How long after its activation tick a path that a commit unconfigures still computes: its delay line holds samples born
before that tick (R107). -/
def Core.drains (c : Core) (p : Nat) : Nat :=
  match (c.path p).before with
  | some (_, old) =>
    let was := fun (off sub : Nat) => (old.find? (entKey (pIdx p off) sub)).getD (c.pe p off sub)
    if c.cfg.configured p then 0 else was 0x0A 1 * tsOf (was 0 1)
  | none => 0

/-- Runs `f` for a sample of path `p` born at `b`, with the values that apply to it (R14). -/
def Core.asOf (c : Core) (p b : Nat) (f : Core → Core) : Core :=
  match (c.path p).before with
  | none => f c
  | some (t, _) => if atOrBefore (t + c.drains p) b then f (c.dropBefore p) else c.underOld p f

/-- The sample of a sweep's probe, where one replaces the path's output (R152), ramped in and out over 64 samples. -/
def Core.probe (c : Core) (p : Nat) (x : Sample) : Core × Option Sample :=
  let k := (c.path p).canc
  if k.phase = 0 then (c, none)
  else
    let c1 := c.modCanc p (fun k => { k with remaining := k.remaining - 1 })
    if k.phase = 1 || k.remaining = 0 then (c1, none)
    else
      let y := c1.probeSample p
      let w := match k.phase with
        | 2 => wIn (c.cfg.phaseLength p 2 - k.remaining)
        | 5 => wOut (64 - k.remaining)
        | _ => 65536
      (y.1, some { x with i := weigh w y.2.1, q := weigh w y.2.2 })

/-- The transmit side of a path on one sample (R111, R112): image filter and interpolator, their validity and saturations;
24 × t_s converter samples. -/
def Core.transmit (c : Core) (p : Nat) (x : Sample) : Core × Bool × List (Int × Int) :=
  let s := c.path p
  let rate := c.cfg.rate p
  let y := cascade imageCoefs s.image (x.i, x.q)
  let o := s.interp.interpolate rate y.1
  let image := if !x.valid then 12 else s.needImage - 1
  let v1 := x.valid && s.needImage = 0
  let inter := if !v1 then 5 else s.needInterp - 1
  let c1 := (c.setPath p { s with image := y.2.1, interp := o.1, needImage := image, needInterp := inter }).sectSaturate p 9
    (y.2.2 + o.2.2)
  (c1, v1 && s.needInterp = 0, o.2.1)

/-- The sinks of a path, of those that R76 lists, with their release ticks for a sample born at `b` (R60): sink, stream, release
tick. -/
def Cfg.releases (g : Cfg) (p b : Nat) : List (Nat × Nat × Nat) :=
  ((g.sinks p).filter sinkOk).map (fun e =>
    if epKind e = 4 then (epNum e, 0, (b + 2 ^ 64 + g.latency p - g.convTerms p true) % 2 ^ 64)
    else (8 + epPort e, e, (b + 2 ^ 64 + g.streamLatency p - g.convTerms p false) % 2 ^ 64))

/-- Counts the sample of path `p` born at `b` as late at sink `k` (R18, R62): once at each sink, and once for its path. -/
def Core.lateSample (c : Core) (k p b : Nat) : Core :=
  let s := c.path p
  let key := k * 2 ^ 64 + b
  if s.lateSeen.contains key then c
  else
    let first := !s.lateSeen.any (fun x => x % 2 ^ 64 = b)
    let seen := key :: s.lateSeen.filter (fun x => ticksFrom (x % 2 ^ 64) c.clock < 65536)
    let c1 := (c.setPath p { s with lateSeen := seen }).count 0x2883 (k + 1) 1
    if first then
      (c1.count 0x2882 (p + 1) 1).modPath p (fun s => { s with lateWindow := s.lateWindow + 1, lifeSlack := some 0 })
    else c1

/-- The smaller of two slacks, where a path has any. -/
def leastSlack : Option Int → Int → Option Int
  | some m, v => some (min m v)
  | none, v => some v

/-- A path's sample reaches the retimers of its sinks (R17, R60, R61): each rebuilds the full birth tick and finds the release
tick; the capture follows from the slack, at least its minimum (R62), and what the manual leaves of it is open. A retimer
past the release tick has already released a zero in the sample's place (R18). -/
def Core.retime (c : Core) (p : Nat) (x : Sample) : Core :=
  let r := c.draw
  let t := if (c.cfg.rfouts p).isEmpty then (r.2, false, []) else r.2.transmit p x
  let b := c.born x.birth
  -- sink, stream, release tick, ticks from now to the capture, slack
  let dues := (c.cfg.releases p b).map (fun e =>
    let left := sInt 64 (ticksFrom c.clock e.2.2)
    let capture := max 0 (left - c.slackMin p (e.1 < 8) - r.1)
    (e.1, e.2.1, e.2.2, capture, left - capture))
  let one := fun (c : Core) (e : Nat × Nat × Nat × Int × Int) =>
    if sInt 64 (ticksFrom c.clock e.2.2.1) < 0 then c.lateSample e.1 p b
    else
      let d : Due := ⟨p, e.2.1, e.2.2.1, (c.clock + e.2.2.2.1.toNat) % 2 ^ 64, if e.1 < 8 then t.2.1 else x.valid, x,
        if e.1 < 8 then t.2.2 else [], t.1.pe p 1 6, bindInverts (c.cfg.txBinding p)⟩
      let k := c.sink e.1
      c.setSink e.1 { k with due := k.due ++ [d] }
  -- a sample that never reached the path is missing at its retimers (R18, R19)
  let gone := (c.path p).missing.contains x.birth
  let c1 := (if gone then t.1 else dues.foldl one t.1)
  let slacks := if gone then [] else (dues.map (fun e => e.2.2.2.2)).filter (0 ≤ ·)
  c1.modPath p (fun s => { s with
    missing := s.missing.filter (· ≠ x.birth)
    owedFrom := match s.owedFrom with
      | some a => if ticksFrom a b % tsOf (c.cfg.rate p) = 0 then some a else some b
      | none => some b
    minSlack := slacks.foldl leastSlack s.minSlack
    lifeSlack := slacks.foldl leastSlack s.lifeSlack })

/-- The stages of a path from the channel sections on, for one sample (R95, R96, R104, R108, R136). `ball` is the tick on
which it reached its RFIN ball. -/
def Core.pathSample (c : Core) (p ball : Nat) (x : Sample) : Core :=
  let g := c.cfg
  let s := c.path p
  let coefs := (if g.offAir p then [droop (g.rate p)] else []) ++ romCoefs (g.response p)
  let y := cascade coefs s.sects (x.i, x.q)
  let need := if !x.valid then g.settle p else s.needSec - 1
  let inp : Sample := { x with i := y.1.1, q := y.1.2, valid := x.valid && s.needSec = 0 }
  let c1 := ((c.setPath p { s with sects := y.2.1, needSec := need }).sectSaturate p 7 y.2.2).passPoint p .input inp
  let k := c1.cancel p ball inp
  let b0 := c1.born x.birth
  let gain := if c1.pe p 2 5 = noCdb then none else some (c1.gainUnder p (c1.levelFor p b0))
  let f := match gain with | some v => gainOf v | none => 0
  let gi := scaleBy f inp.i
  let gq := scaleBy f inp.q
  let si := satS 24 gi - scaleBy f k.2.1
  let sq := satS 24 gq - scaleBy f k.2.2
  let subSat := (if overS 24 si then 1 else 0) + (if overS 24 sq then 1 else 0)
  -- each saturated sample counts once (R81)
  let c2 := (if overS 24 gi || overS 24 gq then k.1.count (pIdx p 2) 6 1 else k.1).cancSaturate p subSat
  let s2 := c2.path p
  let mid : Sample := { inp with i := satS 24 si, q := satS 24 sq }
  let line := (mid :: s2.delay).take 1027
  let place := g (pIdx p 0x0A) 3
  let w := if place = 0 then g.whole p else 0
  let fr := if place = 0 then g.frac p else 0
  let c3 := (c2.setPath p { s2 with
    delay := line, needPhase := s2.needPhase - 1, gainUsed := gain
    levelPast := s2.levelPast.filter (fun e => !atOrBefore e.1 b0)
    changes := if s2.gainUsed.isSome && s2.gainUsed ≠ gain then (x.birth :: s2.changes).take 1027 else s2.changes }).refreshNeed p
  match (line.drop w).head? with
  | none => c3
  | some base =>
    let d := phaseDelay line w fr
    let taps := (line.drop w).take (if fr = 0 then 1 else 4)
    let valid := s2.needPhase = 0 && taps.all Sample.valid && taps.length = (if fr = 0 then 1 else 4)
    let o : Sample := { base with i := d.1, q := d.2, valid := valid }
    let b := c3.born o.birth
    let c4 := ((if valid then c3.settleAt p b else c3.count (pIdx p 9) 2 1).armedRamp p b).placedRamp p b
    let wt := c4.weights p b
    let c5 := (c4.rampOn p b).probe p o
    let out := c5.2.getD { o with i := weigh wt.1 o.i, q := weigh wt.1 o.q }
    let tx := c5.2.getD { o with i := weigh wt.2 o.i, q := weigh wt.2 o.q }
    let moved := (c5.1.path p).changes.contains o.birth || wt.1 ≠ (c5.1.path p).lastWeight
    (((c5.1.passPoint p .output out).stepAt p moved).modPath p (fun s => { s with
      lastWeight := wt.1, changes := s.changes.filter (· ≠ o.birth) })).retime p tx

/-- The receive side of an off-air path on one word (R92 to R95): mixer, decimator, and at a decimation instant one path
sample, born T_dec before the word and so on a multiple of t_s. DESIGN CHOICE (log 144): the conjugate (R72) of the most
negative Q is the most positive. -/
def Core.pathWord (c : Core) (p t : Nat) (samples : List (BitVec 12)) : Core :=
  let g := c.cfg
  if !g.configured p || !(c.path p).computing then c
  else
    let rate := g.rate p
    let birth := (t + 2 ^ 64 - cicTicks rate) % 2 ^ 64
    let last := birth % tsOf rate = 0
    let c0 := if last then c.meetResets p birth else c
    let s := c0.path p
    let word := c0.pe p 1 5
    let cic := (samples.zipIdx).foldl (fun k e => k.push (mixDown e.1.toInt (word * (16 * t + e.2)))) s.cic
    let gap := s.gap || samples.isEmpty
    if !last then c0.setPath p { s with cic := cic, gap := gap }
    else
      let o := cic.output rate
      let sat := o.2.2.2
      let q := if bindInverts (g.rxBinding p) then satS 24 (-o.2.2.1) else o.2.2.1
      let x : Sample := if s.needDec = 0 && !gap then ⟨o.2.1, q, s.needMix = 0, birthField birth, pathField p⟩
        else ⟨0, 0, false, birthField birth, pathField p⟩
      let c1 := c0.setPath p { s with
        cic := o.1, gap := false, needDec := s.needDec - 1, needMix := s.needMix - 1
        missing := if gap then (x.birth :: s.missing).take 1027 else s.missing }
      (if sat then c1.count (pIdx p 8) 8 1 else c1).pathSample p ((birth + 2 ^ 64 - 3) % 2 ^ 64) x

/-- A monitor capture on one word (R127): its own NCO and decimator, the first 8 samples after the arm invalid. -/
def Core.monitorWord (c : Core) (n t : Nat) (samples : List (BitVec 12)) : Core :=
  let i := 0x2A10 + n
  if !c.capturing n then c
  else
    let rate := c.ent i 3
    let birth := (t + 2 ^ 64 - cicTicks rate) % 2 ^ 64
    let word := ncoWord ((c.ent i 2 : Int) * 10000) rxRate
    let s := c.capture n
    let cic := (samples.zipIdx).foldl (fun k e => k.push (mixDown e.1.toInt (word * (16 * t + e.2)))) s.cic
    if birth % tsOf rate ≠ 0 then c.setCapture n { s with cic := cic }
    else
      let o := cic.output rate
      let y := s.sect.run (droop rate) (o.2.1, o.2.2.1)
      let x : Sample := ⟨y.1.1, y.1.2, s.need = 0, birthField birth, 0⟩
      (c.setCapture n { s with cic := o.1, sect := y.2.1, need := s.need - 1 }).captureSample n x true

/-- The rate that the last commit replaced on a path. -/
def Core.rateBefore (c : Core) (p : Nat) : Nat :=
  match (c.path p).before with
  | some (_, old) => (old.find? (entKey (pIdx p 0) 1)).getD (c.cfg.rate p)
  | none => c.cfg.rate p

/-- The fabric takes one buffered word of RFIN `n`: every path and capture fed by it computes. -/
def Core.fabricWord (c : Core) (n : Nat) (w : Nat × List (BitVec 12)) : Core :=
  let one := fun (c : Core) (p : Nat) => if c.rfinAt p w.1 = some n then c.pathWord p w.1 w.2 else c
  let born := fun (c : Core) (p : Nat) => (w.1 + 2 ^ 64 - cicTicks (c.cfg.rate p)) % 2 ^ 64
  let c1 := c.each allPaths (fun c p =>
    match (c.path p).before with
    | none => one c p
    | some (t, _) =>
      -- the activation tick as the new rate, or that of a path removed, counts births
      let b := if c.cfg.configured p then born c p else (w.1 + 2 ^ 64 - cicTicks (Core.rateBefore c p)) % 2 ^ 64
      let t := t + c.drains p
      if atOrBefore t b then one (c.dropBefore p) p
      else c.underOld p (fun c => if atOrBefore t (born c p) then c else one c p))
  c1.each [0, 1, 2, 3] (fun c k => if c.ent (0x2A10 + k) 1 = 0x300 + n then c.monitorWord k w.1 w.2 else c)

/-- How many buffered words stay behind at this moment: the fabric is self-timed, and the manual states no rule. -/
def Core.drain (c : Core) (n : Nat) : Core :=
  let b := (c.rfin n).buffer
  let r := c.drawIn 0 b.length
  let k := b.length - r.1.toNat
  let c1 := r.2.setRfin n { r.2.rfin n with buffer := b.drop k }
  (b.take k).foldl (fun c w => c.fabricWord n w) c1

/-- A word of an RFIN (R19, R69): over-range samples count; a full buffer discards it, and the path samples that lack it are
missing at their release ticks. -/
def Core.rfinWord (c : Core) (n : Nat) (samples : List (BitVec 12)) : Core :=
  let clips := (samples.filter (fun x => x.toInt = -2048 ∨ x.toInt = 2047)).length
  let c1 := if clips = 0 then c else c.count 0x2805 (n + 1) clips
  let r := c1.rfin n
  let full := 8 ≤ (r.buffer.filter (fun w => !w.2.isEmpty)).length
  let c2 := c1.setRfin n { r with
    overRange := r.overRange + clips
    overruns := r.overruns + (if full then 1 else 0)
    buffer := r.buffer ++ [(c.clock, if full then [] else samples)] }
  (if full then c2.count 0x2887 (n + 1) 1 else c2).drain n

/-- Whether the receive self-test holds its RFIN's words back now (R270): throughout, or in guard intervals of at least 1,024
ticks. -/
def Core.selfTesting (c : Core) : Bool :=
  match c.twin.selfTest with
  | some 1 => true
  | some 3 =>
    let s := c.periodOf c.clock
    c.acts s && c.cfg.intervals.any (fun t => t.1 = 2 && 1024 + t.2.1 ≤ t.2.2 &&
      s + t.2.1 ≤ (c.clock : Int) && (c.clock : Int) < s + t.2.2)
  | _ => false

/-- A converter delivers words while it is powered and the station tick runs. -/
def Core.rfinOn (c : Core) (n : Nat) : Bool :=
  c.phase = .ready && c.ticking && c.ent 0x2800 (n + 1) ≠ 0 && c.entBit 0x2803 (n + 1) 0 &&
    !(c.ent 0x7000 3 = n && c.selfTesting)

def execRfinWord (n : Fin 8) (samples : List (BitVec 12)) (s : State) : Out :=
  s.event (fun c => c.rfinOn n && samples.length = 16) (fun c => c.rfinWord n samples)

/-- Whether a sample of path `p` born at `b` leaves its retimers as it is: no hard mute, and nothing born before a ramp up
began. A sweep's probe leaves while the clock gate is met (R34, R35, R47, R50, R152). -/
def Core.unmuted (c : Core) (p b : Nat) : Bool :=
  let s := c.path p
  let st := c.pe p 1 1
  let probing := 2 ≤ s.canc.phase && c.clockGate p
  let hard := (st = psMuted || st = psNone) && s.ramp.isNone
  (probing || !hard) && !(st = psUp && (match s.rampTick with | some t => !atOrBefore t b | none => false))

/-- Whether an RFOUT releases a sample of path `p` born at `b` (R183, R184, R197, R203): inside an active window that neither
an LO nor a coexistence grant cuts there. -/
def Core.inSlot (c : Core) (p o b : Nat) : Bool :=
  let s := c.path p
  !c.cfg.isTdd p || (c.inWindow p b && !(match s.loCut with | some e => decide ((b : Int) < e) | none => false) &&
    !s.coexCut.any (fun e => bit (c.ent (0x3260 + e.1) 2) o && decide ((b : Int) < e.2)))

/-- The birth tick of the sample that a sink at distance `lag` owes on tick `t` of path `p`, where its source supplies
samples (R18). -/
def Core.owed (c : Core) (p lag t : Nat) : Option Nat :=
  let supplied := match c.rfinOf p with | some n => c.rfinOn n | none => true
  match (c.path p).owedFrom with
  | some a =>
    let n := ticksFrom a ((t + 2 ^ 64 - lag) % 2 ^ 64)
    let ts := tsOf (c.cfg.rate p)
    if !(c.path p).computing || !supplied || 2 ^ 63 ≤ n then none else some ((a + n / ts * ts) % 2 ^ 64)
  | none => none

/-- The distance from a birth tick to its release at an RFOUT, or in a Line stream (R60). -/
def Cfg.lag (g : Cfg) (p : Nat) (toRfout : Bool) : Nat :=
  (if toRfout then g.latency p else g.streamLatency p) - g.convTerms p toRfout

/-- Adds one sample of path `p` to the composite level of RFOUT `o` and to the canceller's reference there, which on a
STANDBY is taken before the role mute (R125, R135). -/
def Core.joinSink (c : Core) (o p : Nat) (counts : Bool) (x ref : Int × Int) : Core :=
  let k := c.sink o
  let acc := k.composite.get (fun _ => Power.zero) p
  let comp := if counts then
      k.composite.put (fun _ => Power.zero) p { acc with sum := acc.sum + power x, count := acc.count + 1 }
    else k.composite
  let h := (⟨(c.clock + 5) % 2 ^ 64, ref.1, ref.2⟩ :: k.history.get (fun _ => []) p).take 20992
  c.setSink o { k with composite := comp, history := k.history.put (fun _ => []) p h }

/-- What one contribution adds to an RFOUT word on tick `t` (R61, R112, R113): up-mixed samples, and whether they are valid.
On its first tick it joins the composite level and the canceller's reference. -/
def Core.contribute (c : Core) (o t : Nat) (d : Due) : Core × List Int × Bool :=
  let p := d.path
  let b := c.born d.sample.birth
  let first := t = d.release
  let late := !atOrBefore d.arrival d.release
  let gone := late || !c.unmuted p b || !c.inSlot p o b || c.coexCuts o
  let zero := gone || c.silenced
  let dark := gone || (if c.isStandby then c.supply.forced else c.silenced)
  let fade := (c.sink o).fades.find? p
  let w := match fade with
    | some f => if atOrBefore f.from_ d.release then (if f.up then wIn f.k else wOut f.k) else if f.up then 0 else 65536
    | none => 65536
  let x : Int × Int := (weigh w d.sample.i, weigh w d.sample.q)
  let c1 := if first && late then c.lateSample o p b else c
  let c2 := if !first then c1
    else
      let c2 := c1.joinSink o p (!c.cfg.isTdd p || c.inWindow p b) (if zero then (0, 0) else x) (if dark then (0, 0) else x)
      match fade with
      | some f =>
        if !atOrBefore f.from_ d.release then c2
        else c2.setFade p o (if f.up && 63 ≤ f.k then none else some { f with k := min 64 (f.k + 1) })
      | none => c2
  let chunk := (d.words.drop (24 * ticksFrom d.release t)).take 24
  let out := (chunk.zipIdx).map (fun e => if zero then 0 else weigh w (mixUp d.inverts e.1 (d.nco * (24 * t + e.2))))
  (c2, out, d.valid && !late)

/-- A sample that RFOUT `o` owes and does not hold: a zero with valid = 0, counted as late once (R18). -/
def Core.absent (c : Core) (o t : Nat) (paths : List Nat) : Core × Bool :=
  paths.foldl (fun (a : Core × Bool) p =>
    match a.1.owed p (a.1.cfg.lag p true) t with
    | some b =>
      let first := (b + a.1.cfg.lag p true) % 2 ^ 64 = t
      (if first then (a.1.lateSample o p b).joinSink o p (!a.1.cfg.isTdd p || a.1.inWindow p b) (0, 0) (0, 0) else a.1, false)
    | none => a) (c, true)

/-- Adds two words sample by sample. -/
def addWords : List Int → List Int → List Int
  | [], l => l
  | l, [] => l
  | a :: r, b :: s => (a + b) :: addWords r s

/-- The RFOUT word of this tick (R17, R18, R61, R70): the sum of what is due, rounded to 14 bits and saturated. -/
def Core.releaseWord (c : Core) (o : Nat) : Core :=
  let t := c.clock
  let span := fun (d : Due) => d.words.length / 24
  let now := (c.sink o).due.filter (fun d => ticksFrom d.release t < span d)
  let r := now.foldl (fun (a : Core × List Int × Bool) d =>
    let x := a.1.contribute o t d
    (x.1, addWords a.2.1 x.2.1, a.2.2 && x.2.2)) (c, List.replicate 24 0, true)
  let m := r.1.absent o t ((c.cfg.boundTo o).filter (fun p => !now.any (fun d => d.path = p)))
  let on := c.entBit 0x2804 (o + 1) 0 && !c.silenced
  let rounded := r.2.1.map (fun v => if on then roundShift v 4 else 0)
  let sat := (rounded.filter (fun v => overS 14 v)).length
  let c1 := if sat = 0 then m.1 else m.1.count 0x2806 (o + 1) sat
  let k := c1.sink o
  c1.setSink o { k with
    due := k.due.filter (fun d => !(atOrBefore d.release t && span d ≤ ticksFrom d.release t + 1)), word := rounded.map (satS 14), wordValid := r.2.2 && m.2 }

/-- The sample that stream `e` of a Line port sends from tick `t` (R61, R78): its contributions and its sum, saturated to 24
bits; a late contribution, or one that never came, is zero and makes the sample invalid. Line sinks are never gated
(R184). -/
def Core.releaseStream (c : Core) (q t e : Nat) : Core :=
  let k := 8 + q
  let l := (c.sink k).due.filter (fun d => d.stream = e && d.release = t)
  let late := fun (d : Due) => !atOrBefore d.arrival d.release
  let owe := (c.cfg.streamPaths e).filterMap (fun p =>
    match c.owed p (c.cfg.lag p false) t with
    | some b => if (b + c.cfg.lag p false) % 2 ^ 64 = t && !l.any (fun d => d.path = p) then some (p, b) else none
    | none => none)
  if l.isEmpty && owe.isEmpty then c
  else
    let c1 := l.foldl (fun c d => if late d then c.lateSample k d.path (c.born d.sample.birth) else c) c
    let c2 := owe.foldl (fun c x => c.lateSample k x.1 x.2) c1
    let x := sumC (l.map (fun d =>
      if late d || c.silenced || !c.unmuted d.path (c.born d.sample.birth) then (0, 0) else (d.sample.i, d.sample.q)))
    let c3 := if overS 24 x.1 || overS 24 x.2 then c2.count 0x2807 (q + 1) 1 else c2
    let p := ((l.map Due.path) ++ owe.map Prod.fst).headD 0
    { c3 with line := { c3.line with
      outflow := c3.line.outflow ++ [(e, t, ⟨satS 24 x.1, satS 24 x.2,
        owe.isEmpty && l.all (fun d => d.valid && !late d), birthField t, pathField p⟩)] } }

/-- The stream samples a Line port sends from this tick (R17, R61, R78). -/
def Core.releaseStreams (c : Core) (q : Nat) : Core :=
  let t := c.clock
  let c1 := c.each ((List.range 48).map (fun n => 0x5000 + q * 256 + n)) (fun c e => c.releaseStream q t e)
  let s := c1.sink (8 + q)
  c1.setSink (8 + q) { s with due := s.due.filter (fun d => !atOrBefore d.release t) }

def execSampleRelease (k : Sink) (s : State) : Out :=
  match k with
  | .rfout o => s.event (fun c => c.awake && c.ticking) (fun c => c.releaseWord o)
  | .port q => s.event (fun c => c.awake && c.ticking) (fun c => c.releaseStreams q)

/-- The birth tick of the next sample at a path's output. -/
def Core.nextBirth (c : Core) (p : Nat) : Nat :=
  match ((c.path p).delay.drop (if c.cfg (pIdx p 0x0A) 3 = 0 then c.cfg.whole p else 0)).head? with
  | some x => (c.born x.birth + tsOf (c.cfg.rate p)) % 2 ^ 64
  | none => c.clock

/-- The count of invalid samples has run out (R106): the filter gate is met with the next sample at the output. -/
def Core.settlingEnd (c : Core) (p : Nat) : Core :=
  (c.refreshPath p).modPath p (fun s => { s with gateAt := s.gateAt.map (fun _ => c.nextBirth p) })

def execSettlingEnd (p : Fin 32) (s : State) : Out :=
  s.event (fun c => c.cfg.configured p && c.pe p 9 1 = 0 && bit (c.pe p 1 2) 6) (fun c => c.settlingEnd p)

def execPathGoLive (p : Fin 32) (s : State) : Out := s.event (fun c => c.mayGoLive p) (fun c => c.goLive p)

/-- A ramp has spent its 64 samples (R253): the path is live, or muted; a shed or unconfigured path stops computing. -/
def Core.rampEnd (c : Core) (p : Nat) : Core :=
  if c.pe p 1 1 = psUp then (c.setPe p 1 1 psLive).modPath p (fun s => { s with ramp := none })
  else
    let c1 := c.setPe p 1 1 (if c.cfg.configured p then psMuted else psNone)
    (if c.entBit 0x6005 0 p || !c.cfg.configured p then c1.stopPath p else c1).refreshPath p

def execRampEnd (p : Fin 32) (s : State) : Out :=
  s.event (fun c => (c.pe p 1 1 = psUp || c.pe p 1 1 = psDown) &&
    (match (c.path p).ramp with | some r => 64 ≤ r.k | none => false)) (fun c => c.rampEnd p)

/-- The status index, number and side of a converter. -/
def cvIndex : Converter → Nat
  | .rfin _ => 0x2803
  | .rfout _ => 0x2804
def cvNum : Converter → Nat
  | .rfin n => n
  | .rfout n => n
def cvTx : Converter → Bool
  | .rfin _ => false
  | .rfout _ => true

/-- Every converter. -/
def allConverters : List Converter :=
  (List.finRange 8).map Converter.rfin ++ (List.finRange 8).map Converter.rfout

def Core.cvOn (c : Core) (v : Converter) : Bool := c.entBit (cvIndex v) ((cvNum v) + 1) 0

/-- A converter that is not to be powered is powered down within 1 ms of the decision (R34, R68). -/
def execConverterPowerDown (v : Converter) (s : State) : Out :=
  s.event (fun c => c.cvOn v && !c.wantsPower (cvTx v) (cvNum v)) (fun c =>
    let c1 := c.setEnt (cvIndex v) ((cvNum v) + 1) 0
    let more := allConverters.any (fun u => c1.cvOn u && !c1.wantsPower (cvTx u) (cvNum u))
    ({ c1 with powerDownBy := if more then c1.powerDownBy else none }).refreshPoints.refreshPaths)

/-- The release stages resume after a sag once every powered converter is calibrated (R360): every live path ramps in. -/
def Core.endForcing (c : Core) : Core :=
  if !c.supply.forced || c.supply.episodeAt.isSome ||
      allConverters.any (fun u => c.wantsPower (cvTx u) (cvNum u) && !c.entBit (cvIndex u) (cvNum u + 1) 1) then c
  else ({ c with supply := { c.supply with forced := false } }).each allPaths (fun c p =>
    if c.entBit 0x110A 0 p then c.each (c.cfg.rfouts p) (fun c o => 
      c.setFade p o (some ⟨true, 0, (c.clock + if c.cfg.isTdd p then 0 else c.paLead o) % 2 ^ 64⟩)) else c)

/-- A powered converter ends its power-up calibration (R68). -/
def Core.calibrated (c : Core) (v : Converter) : Core :=
  let i := (cvIndex v)
  let c1 := c.setEntBit i ((cvNum v) + 1) 1 true
  let c2 := if (cvTx v) then c1 else c1.setEntBit i ((cvNum v) + 1) 2 true
  let more := allConverters.any (fun u => c2.cvOn u && !c2.entBit (cvIndex u) ((cvNum u) + 1) 1)
  ({ c2 with calibrateBy := if more then c2.calibrateBy else none }).endForcing.refreshPaths

def execConverterCalibrated (v : Converter) (s : State) : Out :=
  s.event (fun c => c.cvOn v && !c.entBit (cvIndex v) ((cvNum v) + 1) 1) (fun c => c.calibrated v)

/-- A write of the mute entry (R83). -/
def Core.muteWrite (c : Core) (p v : Nat) : Core := (c.setPe p 3 0 v).refreshPath p
def muteAct (p v : Nat) : Act := liveAct (pIdx p 3) 0 v (fun c => c.muteWrite p v)

def execMuteWrite (o : Origin) (p : Fin 32) (v : Byte) (s : State) : Out :=
  .next (s.serveWrite o (pIdx p 3) 0 (d8 v.toNat) (muteAct p v.toNat))

/-- A synchronising reset by command (R105): at the first multiple of 128 ticks strictly after the write. DESIGN
CHOICE (log 134): on a path that is not configured the write is taken and orders nothing. -/
def syncResetAct (p v : Nat) : Act := coreAct (fun c =>
  if v ≠ 1 then (0x0301, c)
  else if c.entBit 0x110A 0 p then (0x0204, c)
  else if !c.cfg.configured p then (0, c)
  else (0, (c.setPe p 9 5 1).orderReset p 5 ((c.clock / 128 + 1) * 128)))

def execSynchronisingResetCommand (o : Origin) (p : Fin 32) (v : Byte) (s : State) : Out :=
  .next (s.serveWrite o (pIdx p 9) 5 (d8 v.toNat) (syncResetAct p v.toNat))

/-- A check of the response ROM ends (R114). DESIGN CHOICE (log 135): byte 16 of a path's record 0x0401 is its number. -/
def Core.romChecked (c : Core) (good : Bool) : Core :=
  let c1 := { (c.wrapAdd 32 0x2903 3 1) with time := { c.time with romNext := c.now + 10 * second } }
  if good || c1.ent 0x2903 1 ≠ 0 then c1
  else
    let c2 := ((c1.setEnt 0x2903 1 1).emit 0 0x0401 (d8 0xFF)).refreshPaths
    c2.each allPaths (fun c p => if c.cfg.configured p then c.emit (2 + p) 0x0401 (d8 p) else c)

def execRomCheck (good : Bool) (s : State) : Out :=
  s.event (fun c => c.phase = .ready && c.time.romNext ≤ c.now) (fun c => c.romChecked good)

/-- The stage of a Line-sourced path in front of the selection (R104, R110): a copy delayed by the phase delay carries its own
birth tick plus floor(D_ph). -/
def Core.delayedCopy (c : Core) (p : Nat) (line : List Sample) : Option Sample :=
  let g := c.cfg
  match (line.drop (g.whole p)).head? with
  | none => none
  | some b =>
    let d := phaseDelay line (g.whole p) (g.frac p)
    let n := if g.frac p = 0 then 1 else 4
    let taps := (line.drop (g.whole p)).take n
    some { b with i := d.1, q := d.2, valid := taps.all Sample.valid && taps.length = n,
                  birth := birthField (c.born b.birth + g.dph256 p / 256) }

/-- A Line-sourced path takes one sample after the selection (R105, R106, R110). Where samples before it never came, the
stages hold what is not its past. -/
def Core.lineSample (c : Core) (p : Nat) (missing : Bool) (x : Sample) : Core :=
  let b := c.born x.birth
  let c1 := c.meetResets p b
  let s := c1.path p
  let broken := match s.delay.head? with
    | some y => decide (y.birth + BitVec.ofNat 16 (tsOf (c1.cfg.rate p)) ≠ x.birth)
    | none => false
  let s1 := { s with missing := if missing then (x.birth :: s.missing).take 1027 else s.missing }
  (c1.setPath p (if broken then { s1 with needSec := c1.cfg.settle p, delay := clearLine s1.delay } else s1)).pathSample p b
    { x with path := pathField p }

/-- The second copies stand in while the main stream is not present: those after the last sample taken, oldest first
(R79). -/
def Core.standIn (c : Core) (p : Nat) : Core :=
  if c.inbound.contains (c.cfg.source p) then c
  else
    let after := fun (y : Sample) => match (c.path p).delay.head? with
      | some l => ticksFrom (c.born l.birth) (c.born y.birth) ≠ 0 && ticksFrom (c.born l.birth) (c.born y.birth) < 32768
      | none => true
    ((c.path p).second.reverse.filter after).foldl (fun c y =>
      if y.valid then (c.count (pIdx p 1) 9 1).lineSample p false y
      else c.lineSample p true { y with i := 0, q := 0 }) c

/-- A sample of a Line stream reaches a path's selection as its main or its second copy (R79): the second is taken where it is
valid and the main is not. `lost` says that the cell of this copy was lost. -/
def Core.streamSample (c : Core) (p : Nat) (main lost : Bool) (x : Sample) : Core :=
  if !main then (c.modPath p (fun s => { s with second := (x :: s.second).take 4096 })).standIn p
  else
    match (c.path p).second.find? (fun y => y.birth = x.birth) with
    | some y => if !x.valid && y.valid then (c.count (pIdx p 1) 9 1).lineSample p false y else c.lineSample p lost x
    | none => c.lineSample p lost x

/-- As `streamSample`, behind the stage of R110 where it stands in front of the selection. -/
def Core.streamIn (c : Core) (p : Nat) (main lost : Bool) (x : Sample) : Core :=
  let g := c.cfg
  if !g.configured p || !(c.path p).computing then c
  else if g (pIdx p 0x0A) 3 = (if main then 1 else 2) then
    let line := (x :: (c.path p).front).take 1027
    let c1 := c.modPath p (fun s => { s with front := line })
    match c1.delayedCopy p line with
    | some y => c1.streamSample p main lost y
    | none => c1
  else c.streamSample p main lost x

end Sys2Proof.Machine
end

