-- ==== Sys2Proof/Machine/Line.lean ====
section
/-! DEFINITION. The Xiruane Line (R276 to R303): port states, frames and cells, time transfer, streams, management packets and
the ring. -/

namespace Sys2Proof.Machine



/-- A stream of a stream table (R284): rate code and first slot. -/
def streamRate (e : Nat) : Nat := bits e 2 0
def streamSlot (e : Nat) : Nat := bits e 13 8
def Cfg.inStream (g : Cfg) (q n : Nat) : Nat := g (0x5120 + q) (n + 1)
def Cfg.outStream (g : Cfg) (q n : Nat) : Nat := g (0x5124 + q) (n + 1)
def Cfg.passSource (g : Cfg) (q n : Nat) : Nat := g (0x5128 + q) (n + 1)

/-- The inbound streams present: those of the tables of ports in TIMED (R35, R278). -/
def Core.streamsPresent (c : Core) : List Nat :=
  ports3.flatMap (fun q => if c.ent (0x5110 + q) 3 = 4 then
    (List.range 48).filterMap (fun n => if streamRate (c.cfg.inStream q n) ≠ 0 then some (0x3000 + q * 256 + n) else none) else [])

def Core.refreshInbound (c : Core) : Core :=
  let l := c.streamsPresent
  if l = c.inbound then c else ({ c with inbound := l }).refreshPaths

/-- The root conditions of this node (R291). -/
def Core.rootValid (c : Core) : Bool :=
  if c.isTerminus then c.ent 0x1221 0 = 2 || c.ent 0x5101 6 = 1 else c.ent 0x1221 0 = 2 && c.ent 0x1222 0 = 1

/-- Whole seconds since an instant, saturating (R291). -/
def Core.secondsSince (c : Core) (t : Option Nat) : Nat :=
  match t with | some x => min (2 ^ 32 - 1) ((c.now - x) / second) | none => 0

def Core.refreshRoot (c : Core) : Core :=
  if !c.isTerminus then c
  else
    let t := if c.rootValid then some (c.line.rootSince.getD c.now) else none
    (({ c with line := { c.line with rootSince := t } }).setEnt 0x5103 3 0).setEnt 0x5103 5 (c.secondsSince t)

/-- The root age that the node reports now. -/
def Core.rootAge (c : Core) : Nat := if c.isTerminus then c.secondsSince c.line.rootSince else c.ent 0x5103 5

/-- The time port a station chooses (R291): the fewest hops, ties to LUP, then LDN, then LBR. -/
def Core.bestTimePort (c : Core) : Option Nat :=
  let l := ports3.filter (fun q => c.framed q && (c.port q).nbrRoot && !(c.port q).nbrTimePort)
  match (l.map (fun q => (c.port q).nbrHops)).min? with
  | none => none
  | some m => l.find? (fun q => (c.port q).nbrHops = m)

/-- A port as a record gives it: 0xFF for none. -/
def portCode (q : Option Nat) : Nat := q.getD 0xFF

/-- Brings the time port, hops and root age up to date (R291, R292): a change writes 0x0B03, and 0x0205 where the Line is the
source in use; with no port left the Line source is lost. -/
def Core.refreshTimePort (c : Core) : Core :=
  if c.isTerminus then c
  else
    let old := c.timePort
    let new := c.bestTimePort
    let hops := match new with | some q => min 0xFFFF ((c.port q).nbrHops + 1) | none => 0xFFFF
    let c1 := (c.setEnt 0x5103 3 hops).setEnt 0x5103 5 (match new with | some q => (c.port q).nbrAge | none => 0)
    if old = new then c1
    else
      let c2 := (c1.setEnt 0x5103 4 (match new with | some q => q + 1 | none => 0)).emit 39 0x0B03
        (d8 0xFF ++ d8 (portCode old) ++ d8 (portCode new) ++ d16 hops)
      match new with
      | none => c2.sourceLost 1
      | some _ =>
        if old.isSome && c2.ent 0x1222 0 = 1 then
          c2.emit 1 0x0205 (d8 (c2.ent 0x1221 0) ++ d8 (c2.ent 0x1221 0) ++ d8 1)
        else c2

/-- Sets or clears ring closed (R300): learned ring entries are flushed, a break counts, and record 0x0B02 carries the
addresses across the break. -/
def Core.setRing (c : Core) (closed : Bool) (a b : Nat) : Core :=
  if c.ringClosed = closed then c
  else
    let c1 := ((c.setEntBit 0x5100 0 3 closed).setEntBit 0x5100 0 4 (!closed)).setEnt 0x5140 1 (if closed then 2 else 3)
    let c2 := { c1 with line := { c1.line with learned := c1.line.learned.filter (fun e => e.2.port = 2) } }
    let c3 := if closed then c2 else (c2.count 0x5140 2 1).setEnt 0x5140 3 (a % 65536 + b % 65536 * 65536)
    c3.emit 39 0x0B02 (d8 0xFF ++ d16 a ++ d16 b)

/-- A ring break (R300): this node's address and its lost neighbour's, where a ring port of its own fell; otherwise the
addresses are not known here, and what the record carries is open. -/
def Core.breakRing (c : Core) : Core :=
  match [0, 1].find? (fun q => !c.framed q) with
  | some q => c.setRing false c.address (c.ent (0x5110 + q) 4)
  | none =>
    let a := c.draw
    let b := a.2.draw
    b.2.setRing false (a.1 % 65536) (b.1 % 65536)

/-- The ring bit of a station (R300). A ring port that fell counts until the neighbours report the ring open. -/
def Core.refreshRing (c : Core) : Core :=
  if c.isTerminus then c
  else
    let both := c.framed 0 && c.framed 1
    let closed := match c.timePort with | some q => (c.port q).nbrRing | none => false
    let fell := if both && !closed then false else c.line.ringFell
    let c1 := { c with line := { c.line with ringFell := fell } }
    if both && closed && !fell then c1.setRing true 0 0
    else if c1.ringClosed then c1.breakRing else c1

/-- A port toward the terminus: framed, its neighbour knowing a terminus (R295). -/
def Core.towardTerminus (c : Core) : Option Nat :=
  match c.timePort with
  | some q => if c.framed q && (c.port q).nbrTerminus ≠ 0 then some q else
      ports3.find? (fun q => c.framed q && (c.port q).nbrTerminus ≠ 0)
  | none => ports3.find? (fun q => c.framed q && (c.port q).nbrTerminus ≠ 0)

def Core.refreshAdmission (c : Core) : Core :=
  if c.isTerminus then c
  else match c.towardTerminus with
    | none => c.setAdmission 0
    | some q =>
      let c1 := c.setEnt 0x5103 2 (c.port q).nbrTerminus
      if c1.ent 0x5102 0 = 0 then c1.setAdmission 1 else c1

/-- The link delay h for the averaged receive delay, by FEC setting (R286). -/
def Core.fecTerm (c : Core) (q : Nat) : Nat := if c.ent (0x5110 + q) 2 = 1 then 204 else 72
/-- Twice the sum of the delays held in 1/256 tick, and their number. -/
def Core.delaySum (c : Core) (q : Nat) : Int × Nat := ((c.port q).delays.foldl (· + ·) 0, (c.port q).delays.length)
def Core.ceilDelay (c : Core) (q : Nat) : Int :=
  let s := c.delaySum q
  if s.2 = 0 then 0 else -((-s.1) / (512 * (s.2 : Int)))

/-- Enters a port state (R278): record 0x0B01, link losses, h, and what depends on the port. -/
def Core.setPortState (c : Core) (q new : Nat) : Core :=
  let i := 0x5110 + q
  let old := c.ent i 3
  if old = new then c
  else
    let c1 := ((c.setEnt i 3 new).setEntBit 0x5100 0 (5 + q) (3 ≤ new)).emit 39 0x0B01 (d8 q ++ d8 old ++ d8 new)
    let fell := 3 ≤ old && new < 3
    let c2 := if fell then
        { (c1.count i 9 1).modPort q (fun p => { p with
          exchanges := 0, delays := [], mOwn := none, nbrRoot := false, nbrRing := false, nbrTerminus := 0, goodFrames := 0, rx := [] })
          with line := { ((c1.count i 9 1).modPort q (fun p => { p with
          exchanges := 0, delays := [], mOwn := none, nbrRoot := false, nbrRing := false, nbrTerminus := 0, goodFrames := 0, rx := [] })).line
          with ringFell := c1.line.ringFell || (q < 2 && c1.ringClosed) } }
      else c1
    let c3 := if new ≤ 1 then c2.modPort q (fun p => { p with locked := false, goodFrames := 0 }) else c2
    let c4 := if new = 4 then c3.setEnt i 6 (c3.fecTerm q + c3.ceilDelay q).toNat
      else if old = 4 then c3.setEnt i 6 0
      else c3
    let c5 := if new < 3 then c4.setEnt i 8 0x80000000 else c4
    c5.refreshTimePort.refreshInbound.refreshAdmission.refreshRing

def execLaneLock (q : Fin 3) (s : State) : Out :=
  s.event (fun c => c.awake && c.ent (0x5110 + q) 3 = 1 && c.ent (0x5110 + q) 1 = 1)
    (fun c => (c.modPort q (fun p => { p with locked := true, goodFrames := 0 })).setPortState q 2)

def execBlockLockLoss (q : Fin 3) (s : State) : Out :=
  s.event (fun c => 2 ≤ c.ent (0x5110 + q) 3) (fun c => c.setPortState q 1)

def execLineFrameMissing (q : Fin 3) (s : State) : Out :=
  s.event (fun c => 3 ≤ c.ent (0x5110 + q) 3) (fun c => c.setPortState q 2)

def execFecMismatch (q : Fin 3) (s : State) : Out :=
  s.event (fun c => c.ent (0x5110 + q) 1 = 1 && !(c.port q).fecFlagged &&
      (match (c.port q).fecSince with | some t => decide (t + 100 * ms ≤ c.now) | none => false))
    (fun c => (c.modPort q (fun p => { p with fecFlagged := true })).emit 39 0x0B07 (d8 q))

/-- A slot's value (R282): the S14 code of a 24-bit part, and whether it saturated. -/
def slotCode (x : Int) : Int × Bool := (satS 14 (roundShift x 10), overS 14 (roundShift x 10))

/-- The slots of cell `k` of the frame of port `q` that began on tick `f` (R279, R285), and their saturations. -/
def Core.cellSlots (c : Core) (q f k : Nat) : List (Int × Int × Bool) × Nat :=
  let l := c.line.outflow.filter (fun e => epPort e.1 = q && ticksFrom (f + 16 * k) e.2.1 < 16)
  l.foldl (fun a e =>
    let cfg := c.cfg.outStream q (epNum e.1)
    let t := tsOf (streamRate cfg)
    let j := streamSlot cfg + ticksFrom (f + 16 * k) e.2.1 / t
    if streamRate cfg = 0 || 48 ≤ j then a
    else
      let i := slotCode e.2.2.i
      let v := slotCode e.2.2.q
      (setAt a.1 j (i.1, v.1, e.2.2.valid), a.2 + (if i.2 then 1 else 0) + (if v.2 then 1 else 0)))
    (List.replicate 48 (0, 0, false), 0)

/-- A cell's 192 bytes (R281). -/
def cellBytes (slots : List (Int × Int × Bool)) (control : List Byte) : List Byte :=
  let at_ := fun j => slots.getD j (0, 0, false)
  let pairs := (List.range 24).flatMap (fun i =>
    let a := at_ (2 * i)
    let b := at_ (2 * i + 1)
    leBytes 7 (rawOf 14 a.1 + rawOf 14 a.2.1 * 2 ^ 14 + rawOf 14 b.1 * 2 ^ 28 + rawOf 14 b.2.1 * 2 ^ 42))
  let valid := leBytes 6 (maskOf ((List.range 48).filter (fun j => (at_ j).2.2)))
  let body := pairs ++ valid ++ padTo 16 control
  body ++ d16 (crc16 body)

/-- The time message of a port (R289). -/
def Core.timeMessage (c : Core) (q : Nat) : List Byte :=
  let m := match (c.port q).mOwn with | some m => rawOf 32 m | none => 0x80000000
  let b4 := c.ent 0x1221 0 + flagMask [(3, c.rootValid), (6, c.timePort = some q)] + c.ent 0x1222 0 % 4 * 16
  d32 m ++ d8 b4 ++ d8 (if c.ringClosed then 1 else 0) ++ d16 (c.ent 0x5103 3) ++ d32 c.rootAge ++
    d16 (if c.isTerminus then c.address else c.ent 0x5103 2) ++ d16 0

/-- The next management segment of a port (R296, R299): forwarded packets first, whole packets one after another. -/
def PortSt.segment (p : PortSt) : PortSt × List Byte :=
  let next := if p.tx.isEmpty then
      (match p.forward, p.own with
        | x :: r, _ => ({ p with tx := x, forward := r }, true)
        | [], x :: r => ({ p with tx := x, own := r }, true)
        | [], [] => (p, false))
    else (p, false)
  let p1 := next.1
  if p1.tx.isEmpty then (p1, List.replicate 16 0#8)
  else
    let part := p1.tx.take 14
    let rest := p1.tx.drop 14
    ({ p1 with tx := rest }, d16 (part.length + flagMask [(4, next.2), (5, rest.isEmpty)]) ++ padTo 14 part)

def PortSt.segments : Nat → PortSt → PortSt × List (List Byte)
  | 0, p => (p, [])
  | n + 1, p =>
    let r := p.segment
    let t := PortSt.segments n r.1
    (t.1, r.2 :: t.2)

/-- A lane header (R280). -/
def Core.laneHeader (c : Core) (q lane tick : Nat) : List Byte :=
  let h := d16 (0x5B3C + lane) ++ d8 (q + flagMask [(2, c.ent (0x5110 + q) 2 = 1), (3, c.isTerminus)]) ++ d8 0 ++
    leBytes 8 tick ++ d16 c.address
  h ++ d16 (crc16 h)

/-- The frame that began 256 ticks ago is complete (R279, R281): the samples released in it, its time message and its
management segments. -/
def Core.sendFrame (c : Core) (q : Nat) : Core :=
  let f := (c.clock + 2 ^ 64 - 256) % 2 ^ 64
  let c0 := c.refreshRoot
  let seg := (c0.port q).segments 15
  let controls := c0.timeMessage q :: seg.2
  let cells := (List.range 16).map (fun k => (c0.cellSlots q f k, controls.getD k []))
  let sat := (cells.map (fun e => e.1.2)).sum
  let c1 := c0.setPort q { seg.1 with
    sentHeader := c0.laneHeader q 0 f ++ c0.laneHeader q 1 f, sentCells := cells.map (fun e => cellBytes e.1.1 e.2) }
  let c2 := if sat = 0 then c1 else c1.count 0x2807 (q + 1) sat
  { c2 with line := { c2.line with outflow := c2.line.outflow.filter (fun e => epPort e.1 ≠ q || atOrBefore (f + 256) e.2.1) } }

def execLineFrameSend (q : Fin 3) (s : State) : Out :=
  s.event (fun c => c.awake && c.ticking && c.clock % 256 = 0 && c.ent (0x5110 + q) 1 = 1) (fun c => c.sendFrame q)

/-- A cell whose CRC is right (R283). -/
def cellGood (cell : List Byte) : Bool := cell.length = 192 && crc16 (cell.take 190) = field cell 190 2

/-- The sample in slot `j` of a cell (R282). -/
def cellSample (cell : List Byte) (j birth : Nat) : Sample :=
  let v := field cell (7 * (j / 2)) 7 / 2 ^ (28 * (j % 2))
  ⟨sInt 14 v * 1024, sInt 14 (v / 2 ^ 14) * 1024, bit (field cell 168 6) j, birthField birth, 0⟩

/-- The samples of a frame's inbound streams, born h ticks after their release at the sender (R285, R286); those of a lost
cell are missing. A passed stream leaves 16 ticks after its birth (R287). -/
def Core.takeStreams (c : Core) (q f : Nat) (cells : List (List Byte)) (lost : Nat → Bool) : Core :=
  let g := c.cfg
  let h := c.ent (0x5110 + q) 6
  let all := (List.range 48).flatMap (fun n =>
    let e := g.inStream q n
    if streamRate e = 0 then []
    else
      let t := tsOf (streamRate e)
      (List.range 16).flatMap (fun k => (List.range (16 / t)).map (fun j =>
        let b := (f + 16 * k + j * t + h) % 2 ^ 64
        let miss := lost k
        (0x3000 + q * 256 + n, miss, b, if miss then ⟨0, 0, false, birthField b, 0⟩ else cellSample (cells.getD k []) (streamSlot e + j) b))))
  let pass := all.flatMap (fun (x : Nat × Bool × Nat × Sample) =>
    ports3.flatMap (fun p => (List.range 48).filterMap (fun n =>
      if p ≠ q && streamRate (g.outStream p n) ≠ 0 && g.passSource p n = x.1
      then some (0x5000 + p * 256 + n, (x.2.2.1 + 16) % 2 ^ 64, x.2.2.2) else none)))
  { c with line := { c.line with inflow := c.line.inflow ++ all, outflow := c.line.outflow ++ pass } }

/-- The time exchange of a frame (R289, R290): receive delay, offset, and TIMED or FRAMED by the offset. -/
def Core.exchange (c : Core) (q : Nat) (own : Int) (msg : List Byte) : Core :=
  let i := 0x5110 + q
  let b4 := field msg 4 1
  let c0 := c.modPort q (fun p => { p with
    mOwn := some own, nbrStatus := bits b4 2 0, nbrRoot := bit b4 3, nbrTimePort := bit b4 6, nbrRing := bit (field msg 5 1) 0,
    nbrHops := field msg 6 2, nbrAge := field msg 8 4, nbrTerminus := field msg 12 2 })
  let m := field msg 0 4
  let c1 :=
    if m = 0x80000000 then c0.modPort q (fun p => { p with exchanges := 0, delays := [] })
    else
      let nbr := sInt 32 m
      let a := c0.entS 16 i 7
      let d2 := own + nbr + a
      let off2 := nbr - own + a
      let c1 := c0.modPort q (fun p => { p with exchanges := p.exchanges + 1, delays := (d2 :: p.delays).take 16384 })
      let sum := c1.delaySum q
      let c2 := (c1.setEnt i 5 (rawOf 32 (max 0 (openRound sum.1 (2 * sum.2))))).setS 32 i 8 (openRound off2 2)
      let near := -2048 ≤ off2 && off2 ≤ 2048
      let other := c2.isTerminus && (c2.port q).nbrTerminus ≠ 0 && (c2.port q).nbrTerminus ≠ c2.address
      if c2.ent i 3 = 3 && near && !other then c2.setPortState q 4
      else if c2.ent i 3 = 4 && !near then c2.setPortState q 3
      else c2
  c1.refreshTimePort.refreshAdmission.refreshRing

/-- Recomputes h in TIMED (R286): where the delay has risen above it, or fallen more than 1.5 ticks below. -/
def Core.linkDelay (c : Core) (q : Nat) : Core × Bool :=
  let i := 0x5110 + q
  if c.ent i 3 ≠ 4 then (c, false)
  else
    let s := c.delaySum q
    let base : Int := (c.ent i 6 : Int) - c.fecTerm q
    -- averages compare as 2 × 256 × ticks over the number of exchanges
    let above := 512 * base * s.2 < s.1
    let below := s.1 < (512 * base - 768) * s.2
    if s.2 = 0 || !(above || below) then (c, false)
    else
      let h := (c.fecTerm q + c.ceilDelay q).toNat
      ((c.setEnt i 6 h).emit 39 0x0B04 (d8 q ++ d32 (c.ent i 6) ++ d32 h), true)

/-- A management segment (R296). -/
def Core.takeSegment (c : Core) (q : Nat) (cell : List Byte) : Core :=
  let h := field cell 174 2
  let part := ((cell.drop 176).take 14).take (bits h 3 0)
  if bits h 3 0 = 0 then c
  else c.modPort q (fun p =>
    let rx := (if bit h 4 then [] else p.rx) ++ part
    if bit h 5 then { p with rx := [], arrived := p.arrived ++ [rx] } else { p with rx := rx })

/-- The codewords that FEC corrected, and those beyond it, since the last frame: open numbers, none beyond it where the frame
is whole. A frame spans parts of at most six codewords on its two lanes (R277). -/
def Core.fecCount (c : Core) (q : Nat) (whole : Bool) : Core :=
  if c.ent (0x5110 + q) 2 ≠ 1 then c
  else
    let a := c.drawIn 0 6
    let c1 := a.2.count (0x5110 + q) 11 a.1.toNat
    if whole then c1 else let b := c1.drawIn 0 6; b.2.count (0x5110 + q) 12 b.1.toNat

/-- A Line frame arrives (R278, R283 to R290). -/
def Core.takeFrame (c : Core) (q : Nat) (fr : LineFrame) : Core :=
  let i := 0x5110 + q
  let good := fun (h : List Byte) (lane : Nat) =>
    h.length = 16 && field h 0 2 = 0x5B3C + lane && crc16 (h.take 14) = field h 14 2
  let tick := field fr.header0 4 8
  if !(good fr.header0 0 && good fr.header1 1 && field fr.header1 4 8 = tick) then
    -- an invalid frame: the second in a row leaves FRAMED or TIMED
    let n := (c.port q).missing + 1
    let c1 := (c.fecCount q false).modPort q (fun p => { p with
      missing := n, goodFrames := 0, exchanges := 0, delays := [], mOwn := none })
    if 2 ≤ n && 3 ≤ c1.ent i 3 then c1.setPortState q 2 else c1
  else
    let p := c.port q
    let run := if p.goodFrames ≠ 0 && tick = (p.lastTick + 256) % 2 ^ 64 then p.goodFrames + 1 else 1
    let nbrFec := bit (field fr.header0 2 1) 2
    let same : Bool := nbrFec == (c.ent i 2 == 1)
    let whole := (List.range 16).all (fun k => cellGood (fr.cells.getD k []))
    let c1 := (((c.fecCount q whole).modPort q (fun p => { p with
      missing := 0, goodFrames := run, lastTick := tick, nbrFec := nbrFec,
      fecSince := if same then none else some (p.fecSince.getD c.now), fecFlagged := if same then false else p.fecFlagged })).wrapAdd 32 i 15 1).setEnt
        i 4 (field fr.header0 12 2)
    let c2 := if c1.ent i 3 = 2 && 4 ≤ run && same then c1.setPortState q 3 else c1
    if c2.ent i 3 < 3 then c2
    else
      let lost := fun k => !cellGood (fr.cells.getD k [])
      let bad := ((List.range 16).filter lost).length
      let c3 := (List.range bad).foldl (fun c _ => (c.count i 10 1).tally 39 0x0B08 (d8 q)) c2
      let c4 := if lost 0 then c3.modPort q (fun p => { p with exchanges := 0, delays := [], mOwn := none })
        else c3.exchange q fr.arrival (((fr.cells.getD 0 []).drop 174).take 16)
      let r := c4.linkDelay q
      let c5 := if r.1.ent i 3 = 4 then r.1.takeStreams q tick fr.cells (fun k => r.2 || lost k) else r.1
      (List.range 15).foldl (fun c k => if lost (k + 1) then c else c.takeSegment q (fr.cells.getD (k + 1) [])) c5

def execLineFrameReceive (q : Fin 3) (frame : LineFrame) (s : State) : Out :=
  s.event (fun c => c.awake && 2 ≤ c.ent (0x5110 + q) 3) (fun c => c.takeFrame q frame)

/-- The stream samples born by now reach the paths that name them (R78, R79): second copies first. -/
def Core.deliverStreams (c : Core) : Core :=
  let due := c.line.inflow.filter (fun e => atOrBefore e.2.2.1 c.clock)
  if due.isEmpty then c
  else
    let c1 := { c with line := { c.line with inflow := c.line.inflow.filter (fun e => !atOrBefore e.2.2.1 c.clock) } }
    let send := fun (main : Bool) (c : Core) (e : Nat × Bool × Nat × Sample) =>
      c.each allPaths (fun c p => c.asOf p e.2.2.1 (fun c =>
        if c.cfg.configured p && (if main then c.cfg.source p else c.cfg.second p) = e.1 then c.streamIn p main e.2.1 e.2.2.2
        else c))
    due.foldl (send true) (due.foldl (send false) c1)

/-- The response of a node that does not serve a request itself (R306, R313, R314). -/
def Core.shortResponse (c : Core) (req : List Byte) (code : Nat) : List Byte :=
  d8 (field req 0 1 + 0x80) ++ d8 0 ++ d16 (field req 2 2) ++ d32 (if c.ent 0x5002 0 = 0 then 0 else c.ent 0x5003 0) ++ d16 code ++
    d16 (field req 16 2) ++ d8 (field req 18 1) ++ d8 0 ++ d16 0

/-- A Line response arrives at its originator (R310, R320). -/
def State.lineResponse (s : State) (source : Nat) (body : List Byte) : State :=
  let tag := field body 2 2 % 16384
  let drop := s.onCore (fun c => c.count 0x1133 4 1)
  match s.link.flights.find? tag with
  | none => drop
  | some f =>
    if f.quarantined || !(f.destination = source || field body 8 2 = 0x0605) then drop
    else if !s.room body.length then
      { (drop.onCore (fun c => (c.irq 3).tally 40 0x0C11 [])) with link := { s.link with overflowed := true } }
    else
      ({ s with link := { s.link with flights := s.link.flights.drop tag },
                core := s.core.setEnt 0x1131 0 (s.core.ent 0x1131 0 - 1) }).queueResponse source body

def execLineResponse (source : Half) (body : List Byte) (s : State) : Out :=
  .next (if s.core.phase = .ready then s.lineResponse source.toNat body else s)

/-- A Line request for this node's dictionary (R314): queued, or answered with 0x0206. -/
def State.enqueue (s : State) (source role : Nat) (toPair broadcast : Bool) (body : List Byte) : State :=
  if 64 ≤ s.link.lineQueue.length then
    if broadcast then s
    else s.onCore (fun c => (c.originate source (if toPair then c.pairAddress else c.address) 0 (c.shortResponse body 0x0206)).1)
  else { s with link := { s.link with lineQueue := s.link.lineQueue ++ [⟨source, role, toPair, broadcast, body⟩] } }

/-- The join exchange as a packet delivers it (R332). -/
def Core.joinDelivered (c : Core) (index : Nat) (v : List Byte) : Core :=
  match index with
  | 0x5220 => if v.length = 85 then c.joinRequested v else c
  | 0x5221 => c.challenged v
  | 0x5222 => if c.isTerminus && v.length = 80 then c.answered v else c
  | _ => c.decided v

/-- Delivers a packet's body (R295, R297): a response, a step of a join, or a request. Until it is admitted a station takes
only the join exchange. -/
def State.deliver (s : State) (source role : Nat) (toPair broadcast : Bool) (body : List Byte) : State :=
  let s1 := s.onCore (fun c => c.wrapAdd 32 0x5130 3 1)
  let index := field body 16 2
  if 0x80 ≤ field body 0 1 then s1.lineResponse source body
  else if field body 0 1 = 2 && isJoinEntry index then s1.onCore (fun c => c.joinDelivered index (body.drop 22))
  else if s1.core.isTerminus || s1.core.ent 0x5102 0 = 3 || s1.core.ent 0x5102 0 = 4 then
    s1.enqueue source role toPair broadcast body
  else s1

/-- A discarded packet (R297, R298): its counter, and record 0x0B05 with an open code for its kind. -/
def Core.discardPacket (c : Core) (q sub : Nat) : Core :=
  ((c.count 0x5130 sub 1).count (0x5110 + q) 16 1).tally 39 0x0B05 (d8 q ++ d8 (Config.codeOf (0x0B05 * 256 + sub) % 256))

/-- Sends a packet on (R297 to R299), its hop limit one lower; with no FRAMED port a request is answered with 0x0605. -/
def Core.forwardPacket (c : Core) (q : Nat) (ports : List Nat) (packet : List Byte) (good : Bool) : Core :=
  let dest := field packet 0 2
  let source := field packet 2 2
  let body := ((packet.drop 12).take (field packet 8 2))
  let p := packetOf dest source (field packet 4 1 % 4) (field packet 6 2 - 1) body
  let p := if good then p else p.dropLast ++ [~~~(p.getLastD 0#8)]
  if !ports.isEmpty then (c.queuePacket ports true p).wrapAdd 32 0x5130 2 1
  else
    let c1 := c.discardPacket q 4
    -- a packet learned on its arrival port is only discarded (R297)
    if (c.line.learned.find? dest).map Learned.port ≠ some q && field body 0 1 < 0x80 && dest ≠ 0xFFFF then
      (c1.originate source c1.address 0 (c1.shortResponse body 0x0605)).1
    else c1

/-- A management packet has arrived whole (R297, R298). -/
def State.packet (s : State) (q : Nat) (packet : List Byte) : State :=
  let c := s.core
  let n := field packet 8 2
  let headGood := 12 ≤ packet.length && crc16 (packet.take 10) = field packet 10 2
  let good := packet.length = 16 + n && 1 ≤ n && n ≤ 1008 && crc32 (packet.take (12 + n)) = field packet (12 + n) 4
  let dest := field packet 0 2
  let source := field packet 2 2
  let role := field packet 4 1 % 4
  let body := (packet.drop 12).take n
  if !headGood then s.onCore (fun c => c.discardPacket q 6)
  else
    let s0 := s.onCore (fun c =>
      let c1 := if c.ringClosed && q < 2 then c
        else { c with line := { c.line with learned := c.line.learned.insert source ⟨q, c.now⟩ } }
      if c1.isTerminus then { c1 with ident := { c1.ident with heard := c1.ident.heard.insert source c1.now } } else c1)
    let give := fun (toPair broadcast : Bool) (s : State) =>
      if good then s.deliver source role toPair broadcast body
      else s.onCore (fun c => c.discardPacket q 7)
    let mine := c.pairAddress ≠ 0 && dest = c.pairAddress
    let roleMine := role = 0 || c.pairTakes role (some q)
    let joinFor := field body 0 1 = 2 && (field body 16 2 = 0x5221 || field body 16 2 = 0x5223)
    if field packet 6 2 = 0 then s0.onCore (fun c => c.discardPacket q 5)
    else if dest = 0 && joinFor && (body.drop 22).take 16 ≠ serialNo then
      -- a reply to another station travels away from the terminus (R295)
      s0.onCore (fun c => c.forwardPacket q (ports3.filter (fun x => c.framed x && x ≠ q)) packet good)
    else if dest = 0 || (dest = c.address && c.address ≠ 0) then give false false s0
    else if mine && roleMine then give true false s0
    else if mine then
      s0.onCore (fun c => c.forwardPacket q (ports3.filter (fun x => c.framed x && x ≠ q && c.ent (0x5110 + x) 4 = c.ent 0x5007 0)) packet good)
    else if dest = 0xFFFF then
      if source = c.address then s0
      else
        let s1 := give false true s0
        let ports := s1.core.portsFor 0xFFFF (some q)
        if ports.isEmpty then s1 else s1.onCore (fun c => c.forwardPacket q ports packet good)
    else if source = c.address then s0.onCore (fun c => c.discardPacket q 4)
    else s0.onCore (fun c => c.forwardPacket q (c.portsFor dest (some q)) packet good)

def execManagementPacket (q : Fin 3) (packet : List Byte) (s : State) : Out :=
  .next (if s.core.phase = .ready && s.core.framed q then
    (s.onCore (fun c => c.modPort q (fun p => if p.arrived.head? = some packet then { p with arrived := p.arrived.tail } else p))).packet q packet
  else s)

/-- A learned address lapses after 600 s without a packet (R297). -/
def execAddressLapse (address : Half) (s : State) : Out :=
  s.event (fun c => match c.line.learned.find? address.toNat with
      | some e => decide (e.at_ + 600 * second ≤ c.now)
      | none => false)
    (fun c => { c with line := { c.line with learned := c.line.learned.drop address.toNat } })

def Core.ringTerminus (c : Core) : Bool := c.isTerminus && c.ent 0x5101 4 = 1

/-- A ring probe leaves by LDN (R300), and is lost where LDN is not FRAMED. The manual gives its body no content: an open
byte. -/
def Core.ringProbe (c : Core) : Core :=
  let r := c.draw
  let c1 := r.2.queuePacket ([1].filter c.framed) false (packetOf 0xFFFF c.address 0 (c.ent 0x5101 5) (d8 r.1))
  { (c1.wrapAdd 32 0x5130 1 1) with line := { c1.line with probeAt := some c.now } }

def execRingProbe (s : State) : Out :=
  s.event (fun c => c.awake && c.ringTerminus && c.clock % ms = 0) Core.ringProbe

/-- A ring probe returns on LUP within 1 ms, or does not (R300). -/
def Core.probeReturn (c : Core) (returned : Bool) : Core :=
  let n := if returned then c.line.probesBack + 1 else 0
  let c1 := { c with line := { c.line with probesBack := min 3 n, probeAt := none } }
  if 3 ≤ n then c1.setRing true 0 0 else if !returned && c1.ringClosed then c1.breakRing else c1

def execRingProbeReturn (returned : Bool) (s : State) : Out :=
  s.event (fun c => c.ringTerminus && c.line.probeAt.isSome) (fun c => c.probeReturn returned)

/-- What a commit changes on the Line: port enables and FEC, stream units, the terminus's own admission, ring and tables. -/
def Core.lineCommit (c : Core) : Core :=
  let c1 := c.each ports3 (fun c q =>
    let i := 0x5110 + q
    let units := fun (t : Nat) => ((List.range 48).map (fun n => unitsOf (streamRate (c.ent (t + q) (n + 1))))).sum
    let c1 := (c.setEnt i 13 (units 0x5124)).setEnt i 14 (units 0x5120)
    if c1.ent i 1 = 0 then c1.setPortState q 0
    else if c1.ent i 3 = 0 then c1.setPortState q 1 else c1)
  let c2 := (c1.setEntBit 0x5100 0 0 c1.isTerminus)
  let c3 := if c2.isTerminus then
      ((c2.setEnt 0x5103 1 (c2.ent 0x5101 2)).setEnt 0x5103 2 (c2.ent 0x5101 2)).setAdmission 3
    else c2.refreshAdmission
  let c4 := if c3.isTerminus && c3.ent 0x5101 4 = 1 then (if c3.ent 0x5140 1 = 0 then c3.setEnt 0x5140 1 1 else c3)
    else if c3.isTerminus && c3.ringClosed then (c3.setEntBit 0x5100 0 3 false).setEnt 0x5140 1 0
    else c3
  c4.refreshRoot.refreshInbound

/-- The checks of R301 on a configuration: the check that fails first and its item; check 3 is a budget. -/
def Cfg.lineRefusal (g : Cfg) : Option (Nat × Nat) :=
  let units := fun (e : Nat) => if streamRate e = 0 then 0 else 2 ^ (streamRate e - 1)
  let slots := fun (e : Nat) => (List.range (units e)).map (· + streamSlot e)
  let tables := fun (q : Nat) => [g.inStream q, g.outStream q]
  let badTable := fun (t : Nat → Nat) => (List.range 48).find? (fun n =>
    let e := t n
    4 < streamRate e || (streamRate e ≠ 0 && (48 < streamSlot e + units e ||
      (List.range n).any (fun m => (slots (t m)).any (slots e).contains))))
  let pass := fun (q : Nat) => (List.range 48).find? (fun n =>
    let src := g.passSource q n
    let e := g.outStream q n
    src ≠ 0 && (epKind src ≠ 3 || !epListed src || epPort src = q || streamRate e = 0 ||
      streamRate (g.inStream (epPort src) (epNum src)) ≠ streamRate e ||
      allPaths.any (fun p => g.configured p && (g.sinks p).contains (0x5000 + q * 256 + n))))
  let full := fun (q : Nat) => (tables q).any (fun t => 48 < ((List.range 48).map (fun n => units (t n))).sum)
  ports3.findSome? (fun q =>
    match (tables q).findSome? badTable with
    | some n => some (1, 0x10 * q + n)
    | none => match pass q with
      | some n => some (2, 0x10 * q + n)
      | none => if full q then some (3, 0x10 * q) else none)

end Sys2Proof.Machine
end

