-- ==== Sys2Proof/Machine/SignalBox.lean ====
section
/-! DEFINITION. The Signal Box: slots, laws, tables, hand-overs, ceiling slots and actuator axes (R208 to R241, R146). -/

namespace Sys2Proof.Machine

def Core.slot (c : Core) (s : Nat) : SlotSt := c.box.get (fun _ => SlotSt.init) s
def Core.setSlot (c : Core) (s : Nat) (v : SlotSt) : Core := { c with box := c.box.put (fun _ => SlotSt.init) s v }
def Core.axis (c : Core) (a : Nat) : AxisSt := c.axes.get (fun _ => AxisSt.init) a
def Core.setAxis (c : Core) (a : Nat) (v : AxisSt) : Core := { c with axes := c.axes.put (fun _ => AxisSt.init) a v }

/-- A slot that runs: enabled with a template. -/
def Cfg.slotOn (g : Cfg) (s : Nat) : Bool := g (sIdx s 0) 2 = 1 && g (sIdx s 0) 1 ≠ 0

/-- The engine steps of one run (R209). -/
def Cfg.slotSteps (g : Cfg) (s : Nat) : Nat :=
  let n := g (sIdx s 0) 10
  let t := g (sIdx s 0) 1
  (match t with
    | 1 => 8 | 2 => 10 | 3 => 10 | 4 => 6 + n * (n + 2) | 5 => 4 | 6 => 6 | _ => 0) +
  (if 1 ≤ t && t ≤ 4 && g (sIdx s 3) 1 ≠ 0xFF then 4 else 0)

def Cfg.axisSteps (g : Cfg) : Nat := 16 * ([0, 1].filter (fun a => g (0x4800 + a * 16) 1 = 1)).length

/-- The steps the check at commit counts (R213). -/
def Cfg.boxSteps (g : Cfg) : Nat :=
  (((List.range 64).filter g.slotOn).map g.slotSteps).sum + 12 * (allPaths.filter g.needsCeiling).length + g.axisSteps

/-- Saturation to S64 with its count (R215). -/
def s64 (x : Int) : Int × Nat := (satS 64 x, if overS 64 x then 1 else 0)

def scaleRound (v e : Int) : Int := if 0 ≤ e then v * 2 ^ e.toNat else roundShift v (-e).toNat

/-- A term of R215: coefficient and shift times a signal. -/
def term (p : Int × Int) (x : Int) : Int × Nat := s64 (scaleRound (p.1 * x) (16 - p.2))
/-- A term whose factor already has 16 fraction bits. -/
def termF (p : Int × Int) (x : Int) : Int × Nat := s64 (scaleRound (p.1 * x) (-p.2))
/-- A sum of terms, saturated once. -/
def sumOf (l : List (Int × Nat)) : Int × Nat :=
  let t := s64 ((l.map Prod.fst).foldl (· + ·) 0)
  (t.1, t.2 + (l.map Prod.snd).sum)
def kept (x : Int) : Int × Nat := (x, 0)
def negS (x : Int × Nat) : Int × Nat := (-x.1, x.2)

/-- The output limits (R219), on the scale of 16 fraction bits. -/
def limitTo (lo hi rate uPrev v : Int) : Int :=
  let u := min (max v (lo * 65536)) (hi * 65536)
  if rate = 0 then u else min (max u ((uPrev - rate) * 65536)) ((uPrev + rate) * 65536)

/-- An entry of a table (R227, R240). -/
def Cfg.tableAt (g : Cfg) (t n : Nat) : Int := sInt 32 (g (0x4300 + t) (n / 32 + 1) / 2 ^ (32 * (n % 32)))

/-- The value of a table at `x` (R227). -/
def Cfg.table (g : Cfg) (t : Nat) (x : Int) : Int :=
  let k := g (0x4310 + t) 2
  let u := x - sInt 32 (g (0x4310 + t) 1)
  let i := u / ((2 ^ k : Nat) : Int)
  let f := u - i * (2 ^ k : Nat)
  let at' := fun (a b : Nat) (f : Int) => g.tableAt t a + roundShift ((g.tableAt t b - g.tableAt t a) * f) k
  if g (0x4310 + t) 3 = 1 then at' (i % 1024).toNat ((i + 1) % 1024).toNat f
  else if i < 0 then at' 0 0 0
  else if 1023 ≤ i then at' 1023 1023 0
  else at' i.toNat (i + 1).toNat f

/-- What a law works on. -/
structure LawIn where
  pair : Nat → Int × Int
  template : Nat
  order : Nat
  e : Int
  m : Int
  ff : Int × Nat
  table : Int
  uPrev : Int
  lo : Int
  hi : Int
  rate : Int

/-- The state a law keeps: registers, the previous measurement, and the switch's counts and state. -/
structure LawSt where
  regs : List Int
  mPrev : Int
  nOn : Nat
  nOff : Nat
  on : Bool
deriving DecidableEq, Repr

def LawSt.reg (s : LawSt) (k : Nat) : Int := s.regs.getD k 0

/-- The unlimited output of a law on its state, with saturations (R220 to R225). -/
def LawIn.output (i : LawIn) (s : LawSt) : Int × Nat :=
  match i.template with
  | 1 => sumOf [term (i.pair 1) i.e, kept (s.reg 0), i.ff]
  | 2 =>
    let d := term (i.pair 4) (s.mPrev - i.m)
    let df := sumOf [kept (s.reg 1), termF (i.pair 5) (d.1 - s.reg 1)]
    sumOf [term (i.pair 1) i.e, kept (s.reg 0), (df.1, df.2 + d.2), i.ff]
  | 3 => sumOf [term (i.pair 1) i.e, kept (s.reg 2), i.ff]
  | 4 =>
    sumOf ((List.range i.order).map (fun k => termF (i.pair (21 + k)) (s.reg k)) ++ [term (i.pair 25) i.e, i.ff])
  | 6 => sumOf [term (i.pair 1) i.table, term (i.pair 2) 1]
  | _ => (0, 0)

/-- The state after a run whose unlimited output was `v` and whose limits gave `u` (R220 to R223), with the saturations that
the output has not counted. A stands in four rows of four pairs, as B, C and g stand in four each (DEDUCED, log 128). -/
def LawIn.update (i : LawIn) (s : LawSt) (v u : Int) : LawSt × Nat :=
  let regs := s.regs ++ List.replicate (4 - s.regs.length) 0
  match i.template with
  | 1 =>
    let n := sumOf [kept (s.reg 0), term (i.pair 2) i.e, termF (i.pair 3) (u - v)]
    ({ s with regs := setAt regs 0 n.1, mPrev := i.m }, n.2)
  | 2 =>
    let d := term (i.pair 4) (s.mPrev - i.m)
    let df := sumOf [kept (s.reg 1), termF (i.pair 5) (d.1 - s.reg 1)]
    let n := sumOf [kept (s.reg 0), term (i.pair 2) i.e, termF (i.pair 3) (u - v)]
    ({ s with regs := setAt (setAt regs 0 n.1) 1 df.1, mPrev := i.m }, n.2)
  | 3 =>
    let w := v - i.ff.1
    let n1 := sumOf [term (i.pair 2) i.e, negS (termF (i.pair 4) w), kept (s.reg 3)]
    let n2 := sumOf [term (i.pair 3) i.e, negS (termF (i.pair 5) w)]
    ({ s with regs := setAt (setAt regs 2 n1.1) 3 n2.1, mPrev := i.m }, n1.2 + n2.2)
  | 4 =>
    let x := (List.range i.order).map (fun r =>
      sumOf ((List.range i.order).map (fun k => termF (i.pair (1 + 4 * r + k)) (s.reg k)) ++
        [term (i.pair (17 + r)) i.e]))
    ({ s with regs := padRegs (x.map Prod.fst), mPrev := i.m }, (x.map Prod.snd).sum)
  | _ => ({ s with mPrev := i.m }, 0)
where padRegs (l : List Int) : List Int := l ++ List.replicate (4 - l.length) 0

/-- The preload of a hand-over (R229): the new law's unlimited output equals the previous output; with its saturations
(R215). -/
def LawIn.preload (i : LawIn) (s : LawSt) : LawSt × Nat :=
  let up := i.uPrev * 65536
  -- u_prev less a term of e and the feed-forward, whose saturation the output counts
  let rest := fun (j : Nat) => sumOf [kept up, negS (term (i.pair j) i.e), kept (-i.ff.1)]
  match i.template with
  | 1 => let r := rest 1; ({ s with regs := [r.1, 0, 0, 0] }, r.2)
  | 2 => let r := rest 1; ({ s with regs := [r.1, 0, 0, 0], mPrev := i.m }, r.2)
  | 3 =>
    let r := rest 1
    let s2 := sumOf [term (i.pair 3) i.e, negS (termF (i.pair 5) (up - i.ff.1))]
    ({ s with regs := [0, 0, r.1, s2.1] }, r.2 + s2.2)
  | 4 =>
    let w := rest 25
    let x := (List.range 4).map (fun k => if k < i.order then termF (i.pair (26 + k)) w.1 else (0, 0))
    ({ s with regs := x.map Prod.fst }, w.2 + (x.map Prod.snd).sum)
  | _ => (s, 0)

/-- The hysteresis switch (R224). -/
def LawIn.switch (i : LawIn) (s : LawSt) : LawSt :=
  let p : Int := (i.pair 5).1
  let nOn := if (i.pair 1).1 ≤ i.m then s.nOn + 1 else 0
  let nOff := if i.m ≤ (i.pair 2).1 then s.nOff + 1 else 0
  let on := if p ≤ nOff then false else if p ≤ nOn then true else s.on
  { s with nOn, nOff, on, mPrev := i.m }

/-- One run of a law, with the hand-over `hand` to start (0 none), h runs of hand-over time, and `r0`, `left` of one in
progress (R229). -/
def LawIn.run (i : LawIn) (s : LawSt) (hand h : Nat) (r0 : Int) (left total : Nat) : Int × LawSt × Int × Nat × Nat :=
  if i.template = 5 then
    let s1 := i.switch s
    let v := (if s1.on then (i.pair 3).1 else (i.pair 4).1) * 65536
    let r := if hand = 0 then r0 else v - i.uPrev * 65536
    let k := if hand = 0 then left else h
    let t := if hand = 0 then total else h
    let u := if k = 0 then v else v - openRound (r * k) t
    (satS 32 (roundShift u 16), s1, r, k - 1, if overS 32 (roundShift u 16) then 1 else 0)
  else
    let pre := if hand = 0 then (s, 0) else i.preload s
    let s0 := pre.1
    let v := i.output s0
    let lim := limitTo i.lo i.hi i.rate i.uPrev
    let u := lim v.1
    let r := if hand = 0 then r0 else u - i.uPrev * 65536
    let k := if hand = 0 then left else h
    let t := if hand = 0 then total else h
    let uk := if k = 0 then u else lim (v.1 - openRound (r * k) t)
    let n := i.update s0 v.1 u
    let o := roundShift uk 16
    (satS 32 o, n.1, r, k - 1, pre.2 + v.2 + n.2 + (if overS 32 o then 1 else 0))

/-- An input as it stands now: its value where it has one that may be latched, and its freshness sequence; no sequence
where it is fresh in every period (R216). -/
def Core.boxInput (c : Core) (code : Nat) : Option Int × Option Nat :=
  let n := bits code 11 0
  let level := fun (off : Nat) => (c.cdb? (pIdx (n % 32) (off + n / 32)) 1, some (c.ent (pIdx (n % 32) (off + n / 32)) 2))
  match bits code 15 12 with
  | 0 => (some 0, none)
  | 1 => level 0x13
  | 2 => level 0x11
  | 3 => (c.cdb? 0x2A00 (n + 1), some (c.ent 0x2A03 0))
  | 4 =>
    (if c.hkUsable n then some (c.ent 0x6230 (n + 1) : Int) else none, some (c.ent 0x6232 (n + 1)))
  | 5 => (if c.ent (0x4801 + n * 16) 3 = 2 then some (c.axis n).latched else none, none)
  | 6 => (if c.ent (0x4801 + n * 16) 3 = 2 then some (c.entS 32 (0x4801 + n * 16) 2) else none, none)
  | 7 =>
    let st := c.ent (sIdx n 4) 1
    let out := c.entS 32 (sIdx n 4) 2
    (if st = 3 || st = 4 || (64 ≤ n && out = 0x8000) || !(c.slot n).ran then none else some out, some (c.ent (sIdx n 4) 6))
  | 8 => (c.cdb? (pIdx n 0x1A) 1, some (c.ent (pIdx n 0x1A) 9))
  | 9 =>
    let v := if n < 16 then c.ent 0x6011 (n + 1) else c.ent (0x6020 + (n - 16)) 5
    (if v = 0x8000 then none else some (sInt 16 v), some (c.ent 0x6006 0))
  | 10 => (c.cdb? (pIdx n 2) 3, none)
  | _ => (none, none)

/-- A fresh input: it has a value, and a sequence other than at the last run (R216, R228). `seq` is the last sequence plus
1, 0 before the first. -/
def freshInput (v : Option Int × Option Nat) (seq : Nat) : Bool :=
  v.1.isSome && (match v.2 with | some n => n + 1 ≠ seq | none => true)

/-- The state word of the whole engine (R240). -/
def Core.refreshBox (c : Core) : Core :=
  let st := (List.range 96).map (fun s => c.ent (sIdx s 4) 1)
  (c.setEnt 0x4380 0 (flagMask [(0, c.seconds.any (fun w => w.source = 37 && w.code = 0x0902)), (1, st.contains 3),
    (2, st.contains 4)])).setEnt 0x4385 0 (st.filter (fun x => x = 3 || x = 4)).length

/-- The destination of a slot, and the path of a level loop. -/
def Cfg.dest (g : Cfg) (s : Nat) : Nat := g (sIdx s 0) 6
def Cfg.levelPath (g : Cfg) (s : Nat) : Option Nat :=
  if bits (g.dest s) 15 12 = 1 then some (bits (g.dest s) 11 0) else none

/-- The value of a slot's destination, from which its enabling hands over (R229). -/
def Core.destValue (c : Core) (s : Nat) : Int :=
  let n := bits (c.cfg.dest s) 11 0
  match bits (c.cfg.dest s) 15 12 with
  | 1 => c.cdb (pIdx n 2) 2
  | 2 => c.entS 32 (0x4801 + n * 16) 5
  | _ => 0

/-- A CDB limit of a level loop, taken as +40.00 dB where there is none (R230). -/
def limitOr (x : Option Int) : Int := x.getD 4000

/-- One due run of slots 0 to 63 (R211 to R230): latch, staleness, law. It reads the other slots as they stood after the last φ
and changes nothing but the run it leaves for φ, so the order of the slots changes no result (R212). -/
def Core.slotRun (c : Core) (s : Nat) (lp : Option Nat) (late : Bool) : SlotRun :=
  let g := c.cfg
  let st := c.slot s
  let i0 := c.boxInput (g (sIdx s 0) 4)
  let i1 := c.boxInput (g (sIdx s 0) 5)
  let f0 := freshInput i0 st.seq0
  let f1 := freshInput i1 st.seq1
  let in0 := if f0 then i0.1.getD 0 else c.entS 32 (sIdx s 4) 3
  let in1 := if f1 then i1.1.getD 0 else c.entS 32 (sIdx s 4) 4
  let old := c.ent (sIdx s 4) 1
  let kk := c.ent (sIdx s 2) 6
  let ll := c.ent (sIdx s 2) 7
  let t := g (sIdx s 3) 1
  let template := g (sIdx s 0) 1
  let stale := if f0 then 0 else min 65535 (c.ent (sIdx s 4) 5 + 1)
  let good := if old = 4 && f0 then st.good + 1 else 0
  let new := if old = 4 then (if kk ≤ good then 1 else 4)
    else if ll ≤ stale then 4 else if kk ≤ stale then 3 else if stale ≠ 0 then 2 else 1
  let hand := if old = 4 && new = 1 then 3 else st.hand
  let uPrev := if hand = 2 then c.destValue s else c.entS 32 (sIdx s 4) 2
  let rate := c.entS 32 (sIdx s 2) 3
  let b := match lp with | some _ => c.cdb 0x1109 0 | none => 0
  let m := in0 - b
  let hi0 := c.entS 32 (sIdx s 2) 2
  let hi := match lp with
    | some p => min hi0 (min (limitOr (c.cdb? (pIdx p 2) 3) - b) (limitOr (c.cdb? (pIdx p 2) 4) - b))
    | none => hi0
  let ss : LawSt := ⟨(List.range 4).map (fun k => c.entS 64 (sIdx s 5) (k + 1)), st.mPrev, st.nOn, st.nOff, st.on⟩
  let pair := fun j => (sInt 32 (g (sIdx s 1) (2 * j - 1)), sInt 8 (g (sIdx s 1) (2 * j)))
  let ff := if 1 ≤ template && template ≤ 4 && t ≠ 0xFF then
      term (sInt 32 (g (sIdx s 3) 2), sInt 8 (g (sIdx s 3) 3)) (g.table t in1) else (0, 0)
  let law : LawIn := ⟨pair, template, g (sIdx s 0) 10, c.entS 32 (sIdx s 0) 8 - m, m, ff,
    if template = 6 && t ≠ 0xFF then g.table t m else 0, uPrev, c.entS 32 (sIdx s 2) 1, hi, rate⟩
  let run : SlotRun := {
    out := uPrev, regs := ss.regs, mPrev := ss.mPrev, nOn := ss.nOn, nOff := ss.nOff, on := ss.on, r0 := 0, remaining := 0, sats := 0
    late := false, computed := false, holds := new = 3, in0 := if f0 then i0.1 else none, in1 := if f1 then i1.1 else none
    seq0 := (i0.2.map (· + 1)).getD st.seq0, seq1 := (i1.2.map (· + 1)).getD st.seq1
    state := new, stale, good, hand, found := st.hand }
  if new = 3 then run
  else if new = 4 then
    let aim := if c.ent (sIdx s 2) 5 = 1 then c.entS 32 (sIdx s 2) 4 else uPrev
    { run with out := satS 32 (if rate = 0 then aim else min (max aim (uPrev - rate)) (uPrev + rate)) }
  else
    let r := law.run ss hand (c.ent (sIdx s 0) 9) st.r0 (c.ent (sIdx s 4) 10) st.handTotal
    let handing := if hand = 0 then c.ent (sIdx s 4) 10 ≠ 0 else c.ent (sIdx s 0) 9 ≠ 0
    { run with
      out := r.1, regs := r.2.1.regs, mPrev := r.2.1.mPrev, nOn := r.2.1.nOn, nOff := r.2.1.nOff, on := r.2.1.on
      r0 := r.2.2.1, remaining := r.2.2.2.1, sats := r.2.2.2.2, late, computed := true
      state := if new = 1 && handing then 5 else new }

/-- A due run: a level loop whose path is not live is held (R230); any other waits for φ. -/
def Core.runSlot (c : Core) (s : Nat) (late : Bool) : Core :=
  let go := fun (lp : Option Nat) => c.setSlot s { c.slot s with next := some (c.slotRun s lp late) }
  match c.cfg.levelPath s with
  | some p => if c.entBit 0x110A 0 p then go (some p) else c.setEnt (sIdx s 4) 1 6
  | none => go none

/-- The ceiling computation of R146 for a path, with its source: 0 none, 1 sweep, 2 declared, 3 live. -/
def Core.ceilingRun (c : Core) (p : Nat) (late : Bool) : Core :=
  let k := (c.path p).canc
  let iRaw := c.cdb? (pIdx p 0x1A) 1
  let sMeas := c.cdb? (pIdx p 0x1A) 2
  let live : Option (Int × Int) :=
    if !k.liveHeld then none
    else if k.frozen then
      (match k.iHold, sMeas, k.sHold with
        | some i, some s, some sh => some (i, min s sh)
        | some i, _, some sh => some (i, sh)
        | _, _, _ => none)
    else (match iRaw, sMeas with | some i, some s => some (i, s) | _, _ => none)
  let est : Option (Int × Int × Nat) :=
    match live with
    | some (i, s) => some (i, s, 3)
    | none =>
      if bit (c.pe p 0x1C 7) 0 then some (c.cdb (pIdx p 0x1C) 5, 0, 1)
      else if c.pe p 0x1C 4 = 1 then some (c.cdb (pIdx p 0x1C) 3, 0, 2)
      else none
  let s := 64 + p
  let put := fun (out : Int) (regs : List Int) (on : Bool) (src : Nat) =>
    c.setSlot s { c.slot s with next := some {
      out, regs, mPrev := 0, nOn := 0, nOff := 0, on, r0 := 0, remaining := src, sats := 0, late, computed := true, holds := false
      in0 := none, in1 := none, seq0 := 0, seq1 := 0, state := 1, stale := 0, good := 0, hand := 0, found := 0 } }
  match est with
  | none => put 0x8000 [] false 0
  | some (i, sm, src) =>
    let g := openRound ((i + min sm (c.cdb (pIdx p 0x1B) 2) - c.cdb (pIdx p 0x1B) 1) * 65536) 100
    let ceil := match k.ceiling with
      | none => g
      | some x =>
        if g ≤ x then g
        else if c.pe p 0x19 7 = 1 then
          min g (x + openRound ((c.pe p 0x1B 3 : Int) * c.tc * 65536) (100 * 491520000))
        else x
    put (roundShift (ceil * 100) 16) [ceil, g] true src

/-- Slots due in the period that starts now (R210), rising, the ceiling slots among them. -/
def Core.dueSlots (c : Core) : List Nat :=
  (List.range 64).filter (fun s => c.cfg.slotOn s && c.clock % (c.ent (sIdx s 0) 3 * c.tc) = 0) ++
    (allPaths.filter c.cfg.needsCeiling).map (64 + ·)

/-- Runs the due slots in order. `steps` is what the engine has spent: a run whose bound passes φ may or may not finish in
time (R211, R214). -/
def Core.runSlots (c : Core) (steps : Nat) : List Nat → Core
  | [] => c
  | s :: r =>
    let n := steps + (if s < 64 then c.cfg.slotSteps s else 12)
    let m := fabricFactor (if c.ent 0x6002 0 = 0x8000 then none else some (c.entS 16 0x6002 0)) 128
    let d := if 1600 + 2 * n * m ≤ c.ent 0x4381 0 * 100 then (0, c) else c.drawIn 0 1
    let c1 := if s < 64 then d.2.runSlot s (d.1 = 1) else d.2.ceilingRun (s - 64) (d.1 = 1)
    c1.runSlots n r

/-- Latches the encoder positions and velocities (R211, R233). -/
def Core.latchAxes (c : Core) : Core :=
  c.each [0, 1] (fun c a =>
    let i := 0x4801 + a * 16
    let pos := c.entS 32 i 1
    (c.setS 32 i 2 (wrapS 32 (pos - (c.axis a).latched))).setAxis a { c.axis a with latched := pos })

/-- A level term changes at an output phase: samples born before it keep the term it replaces (R211). -/
def Core.keepLevel (c : Core) (p : Nat) (old : Int) : Core :=
  if c.cdb (pIdx p 2) 2 = old then c
  else c.modPath p (fun s => { s with levelPast := ((c.clock, old) :: s.levelPast).take 256 })

/-- Writes a level term: the slot's output plus the backoff in force (R218, R230). -/
def Core.writeLevel (c : Core) (p : Nat) (u : Int) : Core :=
  ((c.setCdb (pIdx p 2) 2 (some (clampI (-6000) 4000 (u + c.cdb 0x1109 0)))).keepLevel p (c.cdb (pIdx p 2) 2)).refreshGain p

/-- Sets the ceiling of a path (R146). -/
def Core.writeCeiling (c : Core) (p : Nat) (ceil gmax : Option Int) : Core :=
  let toCdb := fun (x : Int) => roundShift (x * 100) 16
  let c1 := ((c.modCanc p (fun k => { k with ceiling := ceil })).setCdb (pIdx p 2) 3 (ceil.map toCdb)).setCdb
    (pIdx p 0x1B) 4 (gmax.map toCdb)
  c1.refreshGain p

/-- Replaces a slot's state by one of the decision stream (R260, R265). -/
def Core.setSlotState (c : Core) (s : Nat) (l : List Int) : Core :=
  let c1 := (List.range 4).foldl (fun c k => c.setS 64 (sIdx s 5) (k + 1) (l.getD k 0)) c
  c1.setSlot s { c1.slot s with
    mPrev := l.getD 4 0, nOn := (l.getD 5 0).toNat, nOff := (l.getD 6 0).toNat, on := decide (l.getD 7 0 = 1) }

/-- The STANDBY compares its slots' results of period k with the ACTIVE's and takes those over at tick 0 of period k + 2
(R260, R263). -/
def Core.adoptSlots (c : Core) : Core :=
  if !(c.isStandby && c.paired) then c
  else
    let k := (c.clock + 2 ^ 64 - 2 * c.tc) % 2 ^ 64
    let due := c.twin.slotIn.filter (fun e => e.1 = k)
    let own := c.twin.slotOwn.filter (fun e => e.1 = k)
    let c0 := { c with twin := { c.twin with
      slotIn := c.twin.slotIn.filter (fun e => e.1 ≠ k), slotOwn := c.twin.slotOwn.filter (fun e => e.1 ≠ k) } }
    due.foldl (fun c e =>
      let s := e.2.1
      let v := e.2.2.1
      let c1 := match own.find? (fun o => o.2.1 = s) with
        | none => c
        | some o =>
          let level := 64 ≤ s || (c.cfg.levelPath s).isSome
          let tol : Int := if level then c.cdb 0x5030 3 else (c.ent 0x5031 (s + 1) : Int)
          if !level && tol = 0 then c
          else c.compare (if level then 5 else 6) s (near v o.2.2.1 tol) (rawOf 32 v) (rawOf 32 o.2.2.1)
      let c2 := (c1.setS 32 (sIdx s 4) 2 v).setSlotState s e.2.2.2
      if 64 ≤ s then c2.writeCeiling (s - 64) (if v = 0x8000 then none else some (e.2.2.2.getD 0 0))
        (if v = 0x8000 then none else some (e.2.2.2.getD 1 0))
      else match c2.cfg.levelPath s with
        | some p => c2.writeLevel p v
        | none =>
          let n := bits (c2.cfg.dest s) 11 0
          if bits (c2.cfg.dest s) 15 12 = 2 then c2.setAxis n { c2.axis n with command := clampI (-65535) 65535 v } else c2)
      c0

/-- The most that the applied gain of a path may be for the total Express-measured level at each of its RFOUTs to stay 30 dB
under the rated output level (R27), all paths bound to the RFOUT moving alike. -/
def Core.shuntBound (c : Core) (p : Nat) : Int :=
  (c.cfg.rfouts p).foldl (fun m o => match c.cdb? (pIdx p 2) 5, c.cdb? 0x2A00 (o + 1) with
    | some g, some v => min m (g + (c.cdb 0x2802 (o + 1) - 3000 - v))
    | _, _ => m) 4000

/-- In SHUNT the part limits the gain of every path with an RFOUT sink (R27). The manual states the level this keeps and not
the limit: an open value at or below what keeps it, chosen anew each control period. -/
def Core.shuntLimits (c : Core) : Core :=
  if c.mode ≠ mShunt then c
  else c.each allPaths (fun c p =>
    if c.cfg.configured p && !(c.cfg.rfouts p).isEmpty then
      let r := c.drawIn (-32767) (max (-32767) (c.shuntBound p))
      (r.2.modGuardPath p (fun g => { g with shuntLimit := some r.1 })).refreshGain p
    else c)

/-- A control period starts (R63, R64, R211): the period that ends is counted, inputs are latched and every due slot
runs. -/
def Core.controlPeriod (c : Core) : Core :=
  let c0 := match c.time.period with
    | some t => if (t + c.tc) % 2 ^ 64 = c.clock then c.wrapAdd 32 0x1242 0 1 else c
    | none => c
  let c1 := { c0 with time := { c0.time with period := some c0.clock, outputsDone := false } }
  let c1 := c1.shuntLimits
  (c1.adoptSlots.latchAxes.runSlots c1.cfg.axisSteps c1.dueSlots).refreshBox

def Core.periodStarts (c : Core) : Bool :=
  c.phase = .ready && c.ticking && c.clock % c.tc = 0 && c.time.period ≠ some c.clock

def execControlPeriodStart (s : State) : Out := s.event Core.periodStarts Core.controlPeriod

/-- Queues a two-wire write of a slot (R218): the new value replaces one not sent yet. A STANDBY drops it (R243). -/
def Core.slotWrite (c : Core) (s ch : Nat) (u : Int) : Core :=
  if c.isStandby then c
  else
    let d := c.ent (sIdx s 0) 7
    let wide := bit d 16
    let v := (clampI 0 (if wide then 65535 else 255) u).toNat
    let item := TwItem.slot s (bits d 14 8) (bits d 7 0) (if wide then d8 (v / 256) ++ d8 v else d8 v)
    let tw := c.tw.get (fun _ => TwSt.init) ch
    let mine := fun (i : TwItem) => match i with | .slot t _ _ _ => decide (t = s) | .host => false
    let put := fun (q : List TwItem) => { c with tw := c.tw.put (fun _ => TwSt.init) ch { tw with queue := q } }
    if tw.queue.any mine then (put (tw.queue.map (fun i => if mine i then item else i))).tallyOne 37 0x0907 (d8 s)
    else put (tw.queue ++ [item])

/-- Writes an output to its destination (R218). -/
def Core.deliver (c : Core) (s : Nat) (u : Int) : Core :=
  let n := bits (c.cfg.dest s) 11 0
  match bits (c.cfg.dest s) 15 12 with
  | 1 => c.writeLevel n u
  | 2 => c.setAxis n { c.axis n with command := clampI (-65535) 65535 u }
  | 3 => c.slotWrite s n u
  | _ => c

/-- A slot's state as the decision stream carries it (R258): its registers, the previous measurement, and the switch's counts
and state. -/
def Core.slotState (c : Core) (s : Nat) : List Int :=
  let st := c.slot s
  (List.range 4).map (fun k => c.entS 64 (sIdx s 5) (k + 1)) ++
    [st.mPrev, (min 255 st.nOn : Nat), (min 255 st.nOff : Nat), if st.on then 1 else 0]

/-- A slot's state in a record or a copy block: 39 bytes. -/
def stateBytes (l : List Int) : List Byte :=
  (List.range 4).flatMap (fun k => dS64 (l.getD k 0)) ++ dS32 (satS 32 (l.getD 4 0)) ++
    [5, 6, 7].flatMap (fun k => d8 (l.getD k 0).toNat)

/-- A slot's values of this period go to the STANDBY, or stay for its comparison (R258, R260). -/
def Core.shareSlot (c : Core) (s : Nat) : Core :=
  let out := c.entS 32 (sIdx s 4) 2
  let regs := c.slotState s
  let start := c.time.period.getD 0
  if !c.paired then c
  else if c.isActive then
    c.twinSend 0x05 (leBytes 8 start ++ d8 s ++ dS32 out ++ stateBytes regs)
  else { c with twin := { c.twin with slotOwn := c.twin.slotOwn ++ [(start, s, out, regs)] } }

/-- The ceiling slot's output (R146, R231). -/
def Core.outCeiling (c : Core) (p : Nat) (r : SlotRun) : Core :=
  let s := 64 + p
  let old := (c.path p).canc.ceiling
  let new := if r.on then some (r.regs.getD 0 0) else none
  let gmax := if r.on then some (r.regs.getD 1 0) else none
  let oldSrc := c.pe p 0x1B 5
  let c1 := ((c.setS 32 (sIdx s 4) 2 r.out).wrapAdd 32 (sIdx s 4) 6 1).setSlot s { c.slot s with next := none, ran := true }
  let c2 := (List.range 2).foldl (fun c k => c.setS 64 (sIdx s 5) (k + 1) (r.regs.getD k 0)) c1
  let c3 := match old, new with
    | some o, some n =>
      if n + 196608 ≤ o then
        (c2.count (pIdx p 0x1B) 6 1).emit 34 0x0601 (d8 p ++ d16 (c2.pe p 2 3) ++ d16 (cdbRaw (roundShift (n * 100) 16)) ++
          d16 (c2.pe p 0x1A 1) ++ d16 (c2.pe p 0x1A 2))
      else c2
    | _, _ => c2
  let c4 := if oldSrc = r.remaining then c3
    else (c3.setPe p 0x1B 5 r.remaining).emit 34 0x060A (d8 p ++ d8 oldSrc ++ d8 r.remaining)
  let c5 := c4.writeCeiling p new gmax
  if oldSrc = r.remaining then c5 else c5.refreshPath p

/-- What a completed run shows at φ (R228): stale count, latched inputs, state, and the records of HOLD and FALLBACK. -/
def Core.showRun (c : Core) (s : Nat) (r : SlotRun) : Core :=
  let latch := fun (c : Core) (v : Option Int) (sub : Nat) => match v with | some x => c.setS 32 (sIdx s 4) sub x | none => c
  let old := c.ent (sIdx s 4) 1
  let c1 := ((latch (latch c r.in0 3) r.in1 4).setEnt (sIdx s 4) 5 r.stale).setEnt (sIdx s 4) 1 r.state
  let was := fun (n : Nat) => decide (old = n)
  let is := fun (n : Nat) => decide (r.state = n)
  let c2 := if was 3 = is 3 then c1 else
    (if is 3 then c1.count (sIdx s 4) 8 1 else c1).emit 37 0x0903 (d8 s ++ d8 r.state ++ d32 r.stale)
  if was 4 = is 4 then c2 else
    (if is 4 then c2.count (sIdx s 4) 9 1 else c2).emit 37 0x0904 (d8 s ++ d8 r.state ++ dS32 r.out)

/-- A slot's run at φ: shown and written, or abandoned where it is late (R211, R214, R229). -/
def Core.outSlot (c : Core) (s : Nat) : Core :=
  let st := c.slot s
  match st.next with
  | none => c
  | some r =>
    if r.late then
      (((c.setSlot s { st with next := none }).count (sIdx s 4) 7 1).count 0x4384 0 1).tallyOne 37 0x0902 (d8 s)
    else if 64 ≤ s then (c.outCeiling (s - 64) r).shareSlot s
    else
      let st1 := { st with next := none, seq0 := r.seq0, seq1 := r.seq1, good := r.good }
      let c0 := (c.showRun s r).setSlot s st1
      if r.holds then c0
      else
        let c1 := (List.range 4).foldl (fun c k => c.setS 64 (sIdx s 5) (k + 1) (r.regs.getD k 0))
          (c0.setS 32 (sIdx s 4) 2 r.out)
        if !r.computed then (c1.deliver s r.out).shareSlot s
        else
          let c2 := ((c1.wrapAdd 32 (sIdx s 4) 6 1).count (sIdx s 4) 11 r.sats).setEnt (sIdx s 4) 10 r.remaining
          let started := r.hand ≠ 0
          let c3 := if started then
              let d := c2.draw
              d.2.emit 37 0x0905 (d8 s ++ d8 d.1 ++ dS32 (satS 32 (roundShift r.r0 16)))
            else c2
          let c4 := c3.setSlot s { st1 with
            mPrev := r.mPrev, nOn := r.nOn, nOff := r.nOff, on := r.on, r0 := r.r0, ran := true
            handTotal := if started then c.ent (sIdx s 0) 9 else st.handTotal
            -- a commit since the run was taken asks for a hand-over of its own
            hand := if st.hand = r.found then 0 else st.hand }
          (c4.deliver s r.out).shareSlot s

/-- The output phase (R211, R230): outputs to their destinations, and the backoff in force to every level term. -/
def Core.outputPhase (c : Core) : Core :=
  let c0 := { c with time := { c.time with outputsDone := true } }
  let c1 := c0.each (List.range 96) Core.outSlot
  let c2 := c1.each allPaths (fun c p =>
    match c.loopSlot p with
    | some s => if c.entBit 0x110A 0 p && (c.slot s).hand ≠ 2 then c.writeLevel p (c.entS 32 (sIdx s 4) 2) else c
    | none => ((c.refreshLevel p).keepLevel p (c.cdb (pIdx p 2) 2)).refreshGain p)
  c2.refreshBox

def execOutputPhase (s : State) : Out :=
  s.event (fun c => !c.time.outputsDone && (match c.time.period with
    | some t => decide ((t + c.ent 0x4381 0) % 2 ^ 64 = c.clock)
    | none => false)) Core.outputPhase

/-- The PWM period of an axis in ticks (R232). -/
def Cfg.pwmPeriod (g : Cfg) (a : Nat) : Nat := (roundDiv 491520000 (g (0x4800 + a * 16) 2)).toNat

/-- Whether the mode holds an axis' outputs low (R232). -/
def Core.axesHeld (c : Core) : Bool := c.mode = mDepot || c.mode = mStand || c.mode = mIsolate

/-- The slot that drives an axis. -/
def Core.axisSlot (c : Core) (a : Nat) : Option Nat :=
  (List.range 64).find? (fun s => c.cfg.slotOn s && c.cfg.dest s = 0x2000 + a)

/-- The compensated duty (R236). -/
def Core.axisDuty (c : Core) (a : Nat) : Int :=
  let i := 0x4800 + a * 16
  let g := c.cfg
  let x := c.axis a
  let u := x.command
  let comp := fun (t raw shift : Nat) =>
    if g i t = 0xFF then 0 else (term (sInt 32 (g i raw), sInt 8 (g i shift)) (g.table (g i t) x.latched)).1
  let cog := comp 11 12 13
  let fr := comp 14 15 16
  let db : Int := g i 17
  let sgn : Int := if u < 0 then -1 else if 0 < u then 1 else 0
  let friction := if db ≤ u ∨ u ≤ -db then sgn * fr else openRound (u * fr) db.toNat
  let lim : Int := g i 5
  let idle := match c.axisSlot a with
    | some s => c.ent (sIdx s 4) 1 = 4 && c.entS 32 (sIdx s 2) 4 = 0
    | none => false
  if idle then 0 else clampI (-lim) lim (roundShift (u * 65536 + cog + friction) 16)

/-- A PWM period of an axis starts (R232, R236): its duty, when its outputs switch, and the stall run of R235. -/
def Core.pwmStart (c : Core) (a : Nat) : Core :=
  let i := 0x4801 + a * 16
  let x := c.axis a
  let d := if c.axesHeld then 0 else c.axisDuty a
  let was := c.entS 32 i 5
  let turn := (0 < d && was < 0) || (d < 0 && 0 < was)
  let high := d.natAbs * c.cfg.pwmPeriod a / 65536
  let stall := c.ent (0x4800 + a * 16) 9
  (c.setS 32 i 5 d).setAxis a { x with
    periodStart := c.now
    rise := if turn then c.ent (0x4800 + a * 16) 3 else 0
    fall := high
    stallSince := if stall ≠ 0 && (stall : Int) ≤ d.natAbs then some (x.stallSince.getD c.now) else none }

def execPwmPeriod (a : Fin 2) (s : State) : Out :=
  s.event (fun c => c.phase = .ready && c.ent (0x4800 + a * 16) 1 = 1 && c.clock % c.cfg.pwmPeriod a = 0)
    (fun c => c.pwmStart a)

/-- The levels of ACTa_PA and ACTa_PB now (R232). -/
def Core.axisPins (c : Core) (a : Nat) : Bool × Bool :=
  let x := c.axis a
  let d := c.entS 32 (0x4801 + a * 16) 5
  let t := c.now - x.periodStart
  if c.ent (0x4800 + a * 16) 1 ≠ 1 || c.axesHeld then (false, false)
  else if d = 0 then (c.ent (0x4800 + a * 16) 4 = 1, c.ent (0x4800 + a * 16) 4 = 1)
  else
    let on := decide (x.rise ≤ t) && decide (t < x.fall)
    if 0 < d then (on, false) else (false, on)

/-- A fault of an axis (R235). -/
def Core.axisFault (c : Core) (a cause : Nat) : Core :=
  let i := 0x4801 + a * 16
  (((c.setEnt i 3 3).setEnt i 4 cause).count i 7 1).emit 37 0x0906 (d8 (0x80 + a) ++ d8 cause ++ d32 (c.ent i 1))

/-- An axis is unreferenced, or referenced at once where c is 0 (R234). -/
def Core.axisStart (c : Core) (a : Nat) : Core :=
  let i := 0x4801 + a * 16
  let c1 := (c.setEnt i 4 0).setAxis a { c.axis a with indexed := false, stallSince := none }
  if c.ent (0x4800 + a * 16) 6 = 0 then (c1.setEnt i 3 2).setEnt i 1 (c1.ent (0x4800 + a * 16) 8) else c1.setEnt i 3 1

/-- Accepted levels of ENCa_A and ENCa_B (R233, R235): one edge counts, two on one tick are illegal. -/
def Core.encoderEdge (c : Core) (a : Nat) (levelA levelB : Bool) : Core :=
  let i := 0x4801 + a * 16
  let x := c.axis a
  let changedA := levelA != x.levelA
  let changedB := levelB != x.levelB
  let enabled := decide (c.ent (0x4800 + a * 16) 1 = 1)
  let c1 := c.setAxis a { x with levelA, levelB
                                 stallSince := if changedA || changedB then x.stallSince.map (fun _ => c.now) else x.stallSince
                                 lastEdge := if changedA || changedB then c.now else x.lastEdge }
  if changedA && changedB then (if enabled then c1.axisFault a 1 else c1)
  else if changedA || changedB then
    -- A leads B where, after an edge of A, the levels differ, or after an edge of B, they agree.
    let leads := if changedA then levelA != levelB else levelA == levelB
    let step : Int := if leads == Config.encoderUp then 1 else -1
    c1.setS 32 i 1 (wrapS 32 (c1.entS 32 i 1 + step))
  else c1

def execEncoderEdge (a : Fin 2) (levelA levelB : Bool) (s : State) : Out :=
  s.event Core.awake (fun c => c.encoderEdge a levelA levelB)

/-- An accepted rising edge of ENCa_I (R234, R235). -/
def Core.encoderIndex (c : Core) (a : Nat) : Core :=
  let i := 0x4801 + a * 16
  let rev := c.ent (0x4800 + a * 16) 6
  let x := c.axis a
  let pos := c.entS 32 i 1
  match c.ent i 3 with
  | 1 =>
    let ref := c.ent (0x4800 + a * 16) 8
    (((c.setEnt i 1 ref).setEnt i 6 ref).setEnt i 3 2).setAxis a { x with indexed := true }
  | st =>
    let off := if rev = 0 then 0 else (wrapS 32 (pos - c.entS 32 i 6)) % (rev : Int)
    let bad := st = 2 && rev ≠ 0 && x.indexed && 4 < off && off < (rev : Int) - 4
    let c1 := (c.setS 32 i 6 pos).setAxis a { x with indexed := true }
    if bad then c1.axisFault a 2 else c1

def execEncoderIndex (a : Fin 2) (s : State) : Out := s.event Core.awake (fun c => c.encoderIndex a)

def Core.stalled (c : Core) (a : Nat) : Bool :=
  let i := 0x4800 + a * 16
  c.ent i 1 = 1 && c.ent (i + 1) 3 ≠ 3 && (match (c.axis a).stallSince with
    | some t => decide (t + c.ent i 10 * ms ≤ c.now)
    | none => false)

def execEncoderStall (a : Fin 2) (s : State) : Out := s.event (fun c => c.stalled a) (fun c => c.axisFault a 3)

/-- A write to the fault clear entry (R235, R241). -/
def faultClearAct (a v : Nat) : Act := coreAct (fun c =>
  let i := 0x4801 + a * 16
  if v ≠ 1 then (0x0301, c)
  else if c.ent (0x4800 + a * 16) 1 ≠ 1 then (0x0204, c.setEnt i 8 1)
  else
    let c1 := (c.setEnt i 8 0).axisStart a
    let c2 := c1.emit 37 0x0906 (d8 (0x80 + a) ++ d8 0 ++ d32 (c1.ent i 1))
    -- without field supply an encoder counts as faulted (R362)
    (0, if c2.ent 0x6121 0 = 0 then c2.axisFault a 3 else c2))

def execFaultClear (o : Origin) (a : Fin 2) (v : Byte) (s : State) : Out :=
  .next (s.serveWrite o (0x4801 + a * 16) 8 (d8 v.toNat) (faultClearAct a v.toNat))

/-- Whether two slots name one destination (R218, R237). Several slots may name one two-wire channel (R388): there the
destination is the register of the target too (DEDUCED, log 132). -/
def Cfg.sameDest (g : Cfg) (r s : Nat) : Bool :=
  g.dest r = g.dest s && (bits (g.dest s) 15 12 ≠ 3 || bits (g (sIdx r 0) 7) 14 0 = bits (g (sIdx s 0) 7) 14 0)

/-- The checks of R237 on a configuration: the check that fails first and its item. -/
def Cfg.boxRefusal (g : Cfg) : Option (Nat × Nat) :=
  let slot := fun (s : Nat) =>
    let t := g (sIdx s 0) 1
    let d := g.dest s
    let n := bits d 11 0
    let v := fun (j : Nat) => sInt 32 (g (sIdx s 1) (2 * j - 1))
    let destOk := (match bits d 15 12 with
        | 0 => d = 0
        | 1 => n < 32 && g.configured n
        | 2 => n < 2 && g (0x4800 + n * 16) 1 = 1
        | 3 => n < 4
        | _ => false) &&
      (d = 0 || (List.range 64).all (fun r => r = s || !g.sameDest r s))
    if 6 < t then some (1, s)
    else if !inputOk (g (sIdx s 0) 4) || !inputOk (g (sIdx s 0) 5) || (t = 6 && g (sIdx s 3) 1 = 0xFF) then some (2, s)
    else if !destOk then some (3, s)
    else if (t = 4 && !(1 ≤ g (sIdx s 0) 10 && g (sIdx s 0) 10 ≤ 4)) ||
      (t = 5 && (!([1, 2, 3, 4, 5].all (fun j => g (sIdx s 1) (2 * j) = 0)) || v 5 < 1 || 255 < v 5 || v 1 ≤ v 2)) then
      some (4, s)
    else if sInt 32 (g (sIdx s 2) 2) ≤ sInt 32 (g (sIdx s 2) 1) || g (sIdx s 2) 7 ≤ g (sIdx s 2) 6 then some (5, s)
    else none
  let axis := fun (a : Nat) =>
    let i := 0x4800 + a * 16
    if 20000 ≤ g i 2 && g i 2 ≤ 100000 && g i 5 ≤ 65535 && [11, 14].all (fun k => g i k < 8 || g i k = 0xFF) then none
    else some (6, 0x80 + a)
  let table := fun (t : Nat) => if g (0x4310 + t) 2 ≤ 31 && g (0x4310 + t) 3 ≤ 1 then none else some (6, 0xC0 + t)
  let tc := g 0x1240 0 * 128
  let phi := g 0x4381 0
  (((List.range 64).findSome? slot).orElse (fun _ => [0, 1].findSome? axis)).orElse (fun _ =>
    ((List.range 8).findSome? table).orElse (fun _ =>
      if 32 ≤ phi && phi + 32 ≤ tc && 16 + 2 * g.boxSteps ≤ phi then none else some (7, 0xFF)))

/-- Whether a slot's law changes between two configurations (R229). -/
def lawChanges (old new : Cfg) (s : Nat) : Bool :=
  old (sIdx s 0) 1 ≠ new (sIdx s 0) 1 || old (sIdx s 0) 10 ≠ new (sIdx s 0) 10 ||
  (List.range 58).any (fun k => old (sIdx s 1) (k + 1) ≠ new (sIdx s 1) (k + 1)) ||
  [1, 2, 3].any (fun k => old (sIdx s 3) k ≠ new (sIdx s 3) k)

/-- What a commit does to the Signal Box (R63, R64, R208, R213, R229, R234): `old` is the configuration it replaces. -/
def Core.boxCommit (c : Core) (old : Cfg) : Core :=
  let g := c.cfg
  let c1 := c.each (List.range 64) (fun c s =>
    if g.slotOn s then
      if !old.slotOn s then
        (c.setSlot s { SlotSt.init with hand := 2 }).setEnt (sIdx s 4) 1 1
      else if lawChanges old g s then c.setSlot s { c.slot s with hand := 1 } else c
    else if old.slotOn s then ((c.setSlot s SlotSt.init).setEnt (sIdx s 4) 1 0).setEnt (sIdx s 4) 5 0 else c)
  let c2 := c1.each allPaths (fun c p =>
    let s := 64 + p
    let on := g.needsCeiling p
    let c' := ((c.setEnt (sIdx s 0) 1 7).setEnt (sIdx s 0) 2 (if on then 1 else 0)).setEnt (sIdx s 4) 1 (if on then 1 else 0)
    if on then c'
    else ((c'.setSlot s SlotSt.init).setEnt (sIdx s 4) 2 0x8000).writeCeiling p none none |>.setPe p 0x1B 5 0)
  let c3 := c2.each [0, 1] (fun c a =>
    let i := 0x4800 + a * 16
    if g i 1 = 1 && old i 1 ≠ 1 then
      -- without field supply an encoder counts as faulted (R362)
      (if c.ent 0x6121 0 = 0 then (c.axisStart a).axisFault a 3 else c.axisStart a)
    else if g i 1 ≠ 1 && old i 1 = 1 then
      ((c.setEnt (i + 1) 3 0).setEnt (i + 1) 5 0).setAxis a { c.axis a with command := 0, stallSince := none }
    else c)
  let c4 := ((c3.setEnt 0x4382 0 g.boxSteps).setEnt 0x4383 0 ((g 0x4381 0 - 16) / 2)).setEnt 0x1241 0 (g 0x1240 0 * 128)
  let c5 :=
    if old 0x1240 0 = g 0x1240 0 then c4
    else match c4.time.period with
      | none => c4
      | some t =>
        if t = c4.clock && c4.clock % (g 0x1240 0 * 128) = 0 then c4
        else if t = c4.clock then
          -- no period begins on an activation tick that is no multiple of the new length
          { c4 with
            time := { c4.time with period := none, outputsDone := true }
            box := c4.box.mapAll (fun _ => SlotSt.init) (fun e => { e with next := none }) }
        else if (t + old 0x1240 0 * 128) % 2 ^ 64 = c4.clock then
          { c4.wrapAdd 32 0x1242 0 1 with time := { c4.time with period := none } }
        else
          { c4.count 0x1243 0 1 with
            time := { c4.time with period := none, outputsDone := true }
            box := c4.box.mapAll (fun _ => SlotSt.init) (fun e => { e with next := none }) }
  c5.refreshBox

end Sys2Proof.Machine
end

