-- ==== Sys2Proof/Machine/TwoWire.lean ====
section
/-! DEFINITION. The two-wire controller channels (R385 to R393). -/

namespace Sys2Proof.Machine

def Core.twc (c : Core) (ch : Nat) : TwSt := c.tw.get (fun _ => TwSt.init) ch
def Core.setTwc (c : Core) (ch : Nat) (t : TwSt) : Core := { c with tw := c.tw.put (fun _ => TwSt.init) ch t }

/-- The channel state of 0x6320+c.01. -/
def Core.twState (c : Core) (ch : Nat) : Nat := c.ent (0x6320 + ch) 1
def Core.setTwState (c : Core) (ch v : Nat) : Core := c.setEnt (0x6320 + ch) 1 v
def Core.twFlag (c : Core) (ch k : Nat) (b : Bool) : Core := c.setEntBit (0x6320 + ch) 2 k b

/-- Ticks of a time in µs. -/
def usTicks (n : Nat) : Nat := ceilDiv (n * 49152) 100

/-- Ticks of SCL low at a speed of 0x6300+c.02 (R387). -/
def twLow : Nat → Nat
  | 0 => 2580
  | 1 => 737
  | _ => 295

/-- Ticks of SCL high at a speed (R387), counted from the tick on which SCL is seen high. -/
def twHigh : Nat → Nat
  | 0 => 2335
  | 1 => 492
  | _ => 197

/-- Ticks for which the bus is free before a START (R387). -/
def twFree (speed : Nat) : Nat := twLow speed

/-- Ticks of a clock no target stretches (R387). -/
def twPeriod (speed : Nat) : Nat := twLow speed + twHigh speed

/-- The clocks of one byte, most significant bit first, and of its acknowledge: whether the part lets SDA go. -/
def twByteClocks (b : Nat) (ack : Bool) : List Bool := (List.range 8).map (fun k => bit b (7 - k)) ++ [ack]

/-- The clocks of a transfer (R388): the address with the write bit and the bytes written, a clock for a repeated START, the
address with the read bit and the bytes read, each but the last acknowledged, and a clock for the STOP. -/
def twClocks (address : Nat) (write : List Byte) (read : Nat) : List Bool :=
  let w := if write.isEmpty && read ≠ 0 then []
    else twByteClocks (2 * address) true ++ write.flatMap (fun b => twByteClocks b.toNat true)
  let r := if read = 0 then []
    else (if write.isEmpty then [] else [true]) ++ twByteClocks (2 * address + 1) true ++
      (List.range read).flatMap (fun k => twByteClocks 0xFF (k + 1 == read))
  w ++ r ++ [false]

/-- The clocks of a channel's next item. -/
def Core.twItemClocks (c : Core) (ch : Nat) : TwItem → List Bool
  | .host => twClocks (c.ent (0x6310 + ch) 1) ((leBytes 32 (c.ent (0x6310 + ch) 3)).take (c.ent (0x6310 + ch) 2)) (c.ent (0x6310 + ch) 4)
  | .slot _ a r data => twClocks a (BitVec.ofNat 8 r :: data) 0

/-- The clocks a transfer has taken when it ends so: all of them; the address, or the bytes acknowledged and the one that was
not, and a STOP. A bus error may come on the first clock. -/
def twClocksOf (all : Nat) : TwOutcome → Nat
  | .done _ => all
  | .addressNack => 10
  | .dataNack n => 9 * (n + 2) + 1
  | .busError _ _ _ => 0

/-- The clocks in progress end after `n` of them, at the earliest on the tick the unstretched timing gives. -/
def TwSt.clocked (t : TwSt) (n : Nat) (now : Nat) : Bool :=
  match t.wire with
  | some (start, _) => decide (start + n * twPeriod t.speed ≤ now)
  | none => true

/-- Whether the part lets SCL go at an instant, on a bus where no target stretches (R387). -/
def TwSt.scl (t : TwSt) (now : Nat) : Bool :=
  match t.wire with
  | some (start, bits) =>
    let o := now - start
    now < start || bits.length ≤ o / twPeriod t.speed || twLow t.speed ≤ o % twPeriod t.speed
  | none => true

/-- Whether the part lets SDA go at an instant (R387): SDA changes a third of the low time after SCL falls. Before the first
change of a transfer SDA is low, by its START. -/
def TwSt.sda (t : TwSt) (now : Nat) : Bool :=
  match t.wire with
  | some (start, bits) =>
    let o := now - start
    let k := o / twPeriod t.speed
    if o % twPeriod t.speed < twLow t.speed / 3 then (if k = 0 then t.running.isNone else bits.getD (k - 1) true) else bits.getD k true
  | none => true

/-- Whether the part samples a read bit at an instant (R387): on the last tick of the high time. -/
def TwSt.samples (t : TwSt) (now : Nat) : Bool :=
  match t.wire with
  | some (start, bits) =>
    let o := now - start
    decide (start ≤ now) && decide (o / twPeriod t.speed < bits.length) && decide (o % twPeriod t.speed = twPeriod t.speed - 1)
  | none => false

/-- The clocks of a recovery run begin at an instant (R391): nine, with SDA let go, SCL known high until then. -/
def Core.twRecover (c : Core) (ch start : Nat) : Core :=
  c.setTwc ch { c.twc ch with wire := some (start, List.replicate 9 true), highAt := start }

/-- A transfer ends with a result other than 0 (R388): a host transfer shows it, a slot's write counts as failed. -/
def Core.twFail (c : Core) (ch result : Nat) (i : TwItem) : Core :=
  let c0 := if result = 2 || result = 3 then c.count (0x6320 + ch) 4 1 else c
  match i with
  | .host => (c0.setEnt (0x6310 + ch) 5 result).setEnt (0x6310 + ch) 8 c0.clock
  | .slot s _ _ _ => (c0.count (0x6320 + ch) 10 1).firstInSecond (45 + ch) 0x1107 0 (d8 s ++ d8 result)

/-- Ends every queued transfer with a result. -/
def Core.twFlush (c : Core) (ch result : Nat) : Core :=
  let q := (c.twc ch).queue
  (c.setTwc ch { c.twc ch with queue := [] }) |> fun c => q.foldl (fun c i => c.twFail ch result i) c

/-- Takes over the configured speed and enable where no transfer is in progress (R388): a channel disabled ends its queue
with result 7, a channel enabled checks its bus first. Before DEPOT ready no channel is on (R386). -/
def Core.twApply (c : Core) (ch : Nat) : Core :=
  let t := c.twc ch
  if t.running.isSome || c.phase ≠ .ready then c
  else
    let want := decide (c.ent (0x6300 + ch) 1 = 1)
    let c1 := c.setTwc ch { t with on := want, speed := c.ent (0x6300 + ch) 2 }
    if want = t.on then c1
    else if want then
      (c1.setTwc ch { c1.twc ch with checked := false, checkAt := c1.now, highAt := c1.now }).setTwState ch
        (if ch = 3 && c1.ent 0x6121 0 = 0 then 7 else 1)
    else (c1.setTwState ch 0).twFlush ch 7

/-- What an idle channel does with its queue (R388, R389, R391): a transfer starts once the bus has been free for the time of
R387. DESIGN CHOICE (log 118): SCL first falls on the tick after the START. -/
def Core.twServe (c : Core) (ch : Nat) : Core :=
  let t := c.twc ch
  match c.twState ch with
  | 0 => if t.queue.isEmpty then c else c.twFlush ch 7
  | 5 => if t.queue.isEmpty then c else c.twFlush ch 5
  | 7 => if t.queue.isEmpty then c else c.twFlush ch 7
  | 1 =>
    if !t.checked || c.now < t.freeAt then c
    else match t.queue with
      | [] => c
      | i :: r => (c.setTwc ch { t with
          queue := r, running := some i, wire := some (c.now + 1, c.twItemClocks ch i), highAt := c.now }).setTwState ch 2
  | _ => c

/-- The clocks in progress are over: the bus is free from now on, with SCL high. -/
def Core.twQuiet (c : Core) (ch : Nat) : Core :=
  let t := c.twc ch
  c.setTwc ch { t with wire := none, freeAt := c.now + twFree t.speed, highAt := c.now }

/-- The channel returns to idle. -/
def Core.twIdle (c : Core) (ch : Nat) : Core := (((c.twQuiet ch).setTwState ch 1).twApply ch).twServe ch

/-- A reset pulse (R392). -/
def Core.twPulse (c : Core) (ch cause : Nat) : Core :=
  let pulse := usTicks (c.ent (0x6300 + ch) 4)
  let t := { c.twc ch with
    wire := none, pulseEnd := some (c.now + pulse + c.ent (0x6300 + ch) 5 * ms), pulseCause := cause, lineLowUntil := c.now + pulse }
  (((c.setTwc ch t).setTwState ch 6).count (0x6320 + ch) 9 1).emit (45 + ch) 0x1104 (d8 cause)

def execTwBusCheck (ch : Fin 4) (scl sda : Bool) (s : State) : Out :=
  s.event (fun c => c.phase = .ready && c.twState ch = 1 && !(c.twc ch).checked && (c.twc ch).checkAt ≤ c.now) (fun c =>
    let c1 := (c.twFlag ch 0 scl).twFlag ch 1 sda
    if !scl then c1
    else
      let c2 := (c1.setTwc ch { c1.twc ch with checked := true }).twQuiet ch
      if sda then c2 else (c2.twRecover ch (c2.twc ch).freeAt).setTwState ch 3)

/-- A transfer command (R388). -/
def twTransferAct (ch v : Nat) : Act := coreAct (fun c =>
  if v ≠ 1 then (0x0301, c)
  else if c.ent (0x6310 + ch) 5 = 1 then (0x0205, c)
  else if c.twState ch = 0 || c.twState ch = 5 || c.twState ch = 7 then (0x0204, c.setEnt (0x6310 + ch) 5 7)
  else
    let c1 := (c.setEnt (0x6310 + ch) 5 1).setTwc ch { c.twc ch with queue := (c.twc ch).queue ++ [.host] }
    (0, c1.twServe ch))

def execTwTransferCommand (o : Origin) (ch : Fin 4) (v : Byte) (s : State) : Out :=
  .next (s.serveWrite o (0x6310 + ch) 5 (d8 v.toNat) (twTransferAct ch v.toNat))

/-- The target address of a transfer. -/
def Core.twAddress (c : Core) (ch : Nat) : TwItem → Nat
  | .host => c.ent (0x6310 + ch) 1
  | .slot _ a _ _ => a

/-- A transfer ends (R388, R393). -/
def Core.twDone (c : Core) (ch : Nat) (i : TwItem) (r : TwOutcome) : Core :=
  let c0 := c.setTwc ch { c.twc ch with running := none }
  match r with
  | .done bytes =>
    let c1 := (c0.wrapAdd 32 (0x6320 + ch) 3 1).twFlag ch 3 false
    let c2 := match i with
      | .host =>
        (((c1.setEnt (0x6310 + ch) 5 0).setEnt (0x6310 + ch) 6
          (ofLe (padTo 32 (bytes.take (c1.ent (0x6310 + ch) 4))))).setEnt (0x6310 + ch) 7 (c1.ent (0x6310 + ch) 2)).setEnt
            (0x6310 + ch) 8 c1.clock
      | .slot .. => c1
    c2.twIdle ch
  | .addressNack => ((c0.twFail ch 2 i).tallyOne (45 + ch) 0x1106 (d8 (c.twAddress ch i))).twIdle ch
  | .dataNack n =>
    let c1 := c0.twFail ch 3 i
    (match i with | .host => c1.setEnt (0x6310 + ch) 7 (min n (c1.ent (0x6310 + ch) 2)) | .slot .. => c1).twIdle ch
  | .busError byte b sdaHigh =>
    let c1 := (((c0.twFail ch 6 i).count (0x6320 + ch) 8 1).emit (45 + ch) 0x1105 (d8 byte ++ d8 b)).twFlag ch 1 sdaHigh
    if sdaHigh then c1.twIdle ch else ((c1.twRecover ch c1.now).setTwState ch 3).twApply ch

/-- Whether the transfer in progress can have ended so by now: as many clocks as that takes have passed (R387). -/
def TwSt.over (t : TwSt) (r : TwOutcome) (now : Nat) : Bool :=
  t.clocked (twClocksOf (match t.wire with | some (_, bits) => bits.length | none => 0) r) now

def execTwTransferDone (ch : Fin 4) (r : TwOutcome) (s : State) : Out :=
  .next (match (s.core.twc ch).running with
    | some i => if (s.core.twc ch).over r s.core.now then s.onCore (fun c => c.twDone ch i r) else s
    | none => s)

/-- Whether SCL can have stayed low for longer than the timeout (R390). -/
def Core.sclHeld (c : Core) (ch : Nat) : Bool := decide ((c.twc ch).highAt + c.ent (0x6300 + ch) 3 * ms < c.now)

/-- SCL has stayed low past the timeout (R390). -/
def Core.sclTimeout (c : Core) (ch : Nat) (sda : Bool) : Core :=
  let t := c.twc ch
  let c1 := c.setTwc ch { t with running := none, wire := none }
  let c2 := match t.running with | some i => c1.twFail ch 4 i | none => c1
  let c3 := ((((c2.twFlag ch 0 false).twFlag ch 1 sda).twFlag ch 3 true).setTwState ch 4).count (0x6320 + ch) 5 1
  let c4 := (c3.emit (45 + ch) 0x1101 (d8 (if sda then 1 else 0))).twApply ch
  if ch < 2 then c4.twPulse ch 1 else c4

def execSclTimeout (ch : Fin 4) (sda : Bool) (s : State) : Out :=
  s.event (fun c => (c.twState ch = 1 || c.twState ch = 2 || c.twState ch = 3) && c.sclHeld ch) (fun c => c.sclTimeout ch sda)

/-- SCL has been high for the bus-free time on a channel in state 4 (R390). -/
def Core.sclRise (c : Core) (ch : Nat) (sda : Bool) : Core :=
  let c1 := ((c.twFlag ch 0 true).twFlag ch 1 sda).setTwc ch { c.twc ch with checked := true }
  if sda then c1.twIdle ch else (c1.twRecover ch c1.now).setTwState ch 3

def execSclRise (ch : Fin 4) (sda : Bool) (s : State) : Out :=
  s.event (fun c => c.twState ch = 4) (fun c => c.sclRise ch sda)

/-- The clocks a recovery run has taken when it ends (R391): all nine with SDA low; else those used and one for the STOP. -/
def nineClocksOf (clocks : Nat) (sdaHigh : Bool) : Nat := if sdaHigh then clampN 1 9 clocks + 1 else 9

/-- A run of the nine clocks (R391): `again` for the runs of every second while SDA is stuck. -/
def Core.nineClocks (c : Core) (ch clocks : Nat) (sdaHigh again : Bool) : Core :=
  let n := clampN 1 9 clocks
  let c1 := ((c.count (0x6320 + ch) 6 1).emit (45 + ch) 0x1102 (d8 n ++ d8 (if sdaHigh then 0 else 5))).twFlag ch 1 sdaHigh
  if sdaHigh then
    ((c1.twFlag ch 2 false).setTwc ch { c1.twc ch with checked := true, retryAt := none }).twIdle ch
  else
    let first := !c1.entBit (0x6320 + ch) 2 2
    let c2 := (c1.count (0x6320 + ch) 7 1).twFlag ch 2 true
    let c3 := if first then c2.emit (45 + ch) 0x1103 [] else c2
    if first && ch < 2 && !again then c3.twPulse ch 2
    else (((c3.setTwState ch 5).setTwc ch { c3.twc ch with retryAt := some (c3.now + second) }).twRecover ch
      (c3.now + second)).twServe ch

def execNineClockRecovery (ch : Fin 4) (clocks : Nat) (sdaHigh : Bool) (s : State) : Out :=
  s.event (fun c => c.twState ch = 3 && (c.twc ch).clocked (nineClocksOf clocks sdaHigh) c.now) (fun c => c.nineClocks ch clocks sdaHigh false)

def execSdaStuckRetry (ch : Fin 4) (clocks : Nat) (sdaHigh : Bool) (s : State) : Out :=
  s.event (fun c => c.twState ch = 5 && c.reached (c.twc ch).retryAt &&
    (c.twc ch).clocked (nineClocksOf clocks sdaHigh) c.now) (fun c => c.nineClocks ch clocks sdaHigh true)

/-- A reset command (R392): refused while the channel is busy, recovering or resetting. -/
def twResetAct (ch v : Nat) : Act := coreAct (fun c =>
  let st := c.twState ch
  if v ≠ 1 then (0x0301, c)
  else if st = 2 || st = 3 || st = 6 then (0x0205, c.setEnt (0x6300 + ch) 6 2)
  else (0, (c.setEnt (0x6300 + ch) 6 1).twPulse ch 3))

def execTwResetCommand (o : Origin) (ch : Fin 4) (v : Byte) (s : State) : Out :=
  .next (s.serveWrite o (0x6300 + ch) 6 (d8 v.toNat) (twResetAct ch v.toNat))

/-- The pulse and its recovery end (R390 to R392): the channel goes on where the pulse found it. -/
def Core.twResetDone (c : Core) (ch : Nat) : Core :=
  let t := c.twc ch
  let c1 := c.setTwc ch { t with pulseEnd := none }
  let c2 := if t.pulseCause = 3 then c1.setEnt (0x6300 + ch) 6 0 else c1
  if !t.on then c2.setTwState ch 0
  else if t.pulseCause = 2 || c2.entBit (0x6320 + ch) 2 2 then (c2.twRecover ch c2.now).setTwState ch 3
  else if c2.entBit (0x6320 + ch) 2 3 && !c2.entBit (0x6320 + ch) 2 0 then c2.setTwState ch 4
  else ((c2.setTwState ch 1).setTwc ch { c2.twc ch with checked := false, checkAt := c2.now, highAt := c2.now })

def execTwResetDone (ch : Fin 4) (s : State) : Out :=
  s.event (fun c => c.twState ch = 6 && c.reached (c.twc ch).pulseEnd) (fun c => c.twResetDone ch)

end Sys2Proof.Machine
end

