-- ==== Sys2Proof/Machine/Supplies.lean ====
section
/-! DEFINITION. A full reset (R36), the NV write engine's units (R25, R403), and the supplies (R353 to R367): sag, hold-up
save, recovery, readiness and the field supply. -/

namespace Sys2Proof.Machine

/-- The bytes of a slot's record after a power loss inside its unit (R403): written, without its mark, or marked with a wrong
CRC. `k` is an open choice. -/
def tornRecord (old new k : Nat) : Nat :=
  match k % 3 with
  | 0 => new
  | 1 => old % 2 ^ 240
  | _ => new % 2 ^ 224 + (new / 2 ^ 224 % 2 ^ 16 + 1) % 2 ^ 16 * 2 ^ 224 + 0x5AC3 * 2 ^ 240

/-- What the MRAM holds after a power loss inside the unit in progress: each unit is written or lost, by an open choice. -/
def Nv.tear (n : Nv) (k : Nat) : Nv :=
  match n.unit with
  | some (.book r) =>
    let raw := ofLe r.bytes
    (if k % 3 = 0 then n.writeRecord raw
     else { n with
      records := n.records.put (fun _ => 0) (slotOf r.seq) (tornRecord (n.records.get (fun _ => 0) (slotOf r.seq)) raw k) })
  | some (.restored b) =>
    let raw := ofLe b
    (if k % 3 = 0 then n.writeRecord raw
     else { n with
      records := n.records.put (fun _ => 0) (slotOf (seqOf raw))
        (tornRecord (n.records.get (fun _ => 0) (slotOf (seqOf raw))) raw k) })
  | some (.calibration _ _ _) => { n with fieldGood := k % 2 = 0 }
  | some u => if k % 2 = 0 then n.perform u else n
  | none => n

/-- A full reset (R36): every entry at its default, every output muted, the station clock stopped. A reset of cause 1, 2 or 3
keeps the persistent-state units, the unit in progress, which completes, and the retention register; one of cause 0 keeps
neither. -/
def State.doReset (s : State) (cause : Nat) (held : Option (Nat × Nat)) : State :=
  let s0 := if cause = 0 then s else s.collect
  let c := s0.core
  let r := c.draw
  let nv1 := if cause = 0 then { s0.nv.tear r.1 with unit := none, job := none, erasing := [], superseding := none }
    else { s0.nv with job := none, erasing := [] }
  let keep := if cause = 0 then [] else c.persist
  let core : Core := { Core.init with
    now := c.now
    free := r.2.free
    resetLow := decide (cause = 1)
    persist := if c.thermalDown then [] else keep
    twin := { TwinSt.init with preemptIn := c.twin.preemptIn }
    supply := { SupplySt.init with heldRecord := held } }
  let b := s0.book
  let book : Book := if cause = 0 then Book.init
    else { Book.init with
      next := b.next, losses := b.losses, firstLost := b.firstLost, lastLost := b.lastLost,
      retained := b.opened || b.retained, releasedByReset := b.releasedByReset,
      carried := b.carried ++ (if c.thermalDown then keep else []) }
  ({ s0 with core := core.setEnt 0x1105 0 cause, book, nv := nv1, link := Link.init }).kick

/-- A reset ordered at this moment: a save in progress holds it (R359). -/
def State.orderReset (s : State) (cause : Nat) : State :=
  if s.core.supply.save.isSome then
    { s with core := { s.core with supply := { s.core.supply with
      heldReset := match s.core.supply.heldReset with | some h => some h | none => some (cause, s.core.now) } } }
  else s.doReset cause none

/-- What follows the end of a save (R359): a reset of cause 0 after a brown-out, or the reset it held. -/
def State.afterSave (s : State) : State :=
  let v := s.core.supply
  if s.core.supply.save.isSome then s
  else match v.browned, v.heldReset with
    | true, h => s.doReset 0 (h.map (fun x => (x.1, s.core.now - x.2)))
    | false, some (cause, since) => s.doReset cause (some (cause, s.core.now - since))
    | false, none => s

/-- A save ends with its status (R358, R359): complete, or partial. -/
def State.endSave (s : State) (status : Nat) : State :=
  match s.core.supply.save with
  | none => s
  | some v =>
    let c := s.core
    let c1 := ((c.setEnt 0x6110 1 status).setEnt 0x6110 4 ((c.now - v.from_) % 2 ^ 32)).setEnt 0x6110 5 v.good
    let c2 := (c1.setEntBit 0x6100 0 2 false).setEntBit 0x6100 0 4 (status = 1)
    ({ s with core := { c2 with supply := { c2.supply with save := none, saveEnd := c2.now } } }).afterSave

/-- A persistent-state unit in 64 bytes, in the layout this model gives it: a count, then key, length and value of each. -/
def unitBytes (keys : List (Nat × Nat)) : List Byte :=
  padTo 64 (d8 keys.length ++ keys.flatMap (fun kv =>
    let n := if rosterKey 0 ≤ kv.1 then 40 else 8
    d32 kv.1 ++ d8 n ++ leBytes n kv.2))

def unitKeys : Nat → List Byte → List (Nat × Nat)
  | 0, _ => []
  | n + 1, b =>
    let len := field b 4 1
    (field b 0 4, field b 5 len) :: unitKeys n (b.drop (5 + len))
def unitOfBytes (b : List Byte) : List (Nat × Nat) := unitKeys (field b 0 1) (b.drop 1)

/-- The Guard's escalation entries (R358): kind and item, and the tick of each decision or mute that counts. -/
def Core.escalation (c : Core) : List (Nat × Nat) :=
  allPaths.flatMap (fun p => (within60 (c.path p).guard.decisions c.now (60 * second)).map (fun t => (p, t))) ++
  allPaths.flatMap (fun p => (within60 (c.path p).guard.floorMutes c.now (3600 * second)).map (fun t => (64 + p, t))) ++
  (List.range 8).flatMap (fun o => (within60 (c.refl o).mutes c.now (60 * second)).map (fun t => (128 + o, t)))

/-- The contents of a page of the save (R358), 252 bytes before its CRC-32. -/
def State.savePage (s : State) (v : Save) (k : Nat) : List Byte :=
  let c := s.core
  if k = 0 then d32 0x32165AFE ++ d32 v.seq ++ leBytes 8 v.clock ++ d8 v.status ++ d8 v.rail ++ d8 1
  else if k ≤ 2 then ((c.persist.drop (2 * (k - 1))).take 2).flatMap unitBytes
  else if k ≤ 5 then
    let l := c.escalation
    let all := d16 (c.ent 0x3102 0) ++ d8 (min 150 l.length) ++
      (l.take 150).flatMap (fun e => d8 e.1 ++ d32 ((c.clock + 2 ^ 64 - (c.now - e.2)) % 2 ^ 64))
    (all.drop (252 * (k - 3))).take 252
  else if k ≤ 79 then ((v.records.drop (7 * (k - 6))).take 7).flatten
  else d32 v.seq ++ d32 (v.good + 1) ++ d8 2

/-- A page of the save is written (R358); after page 5 the staged records are taken as they stand. -/
def State.writeSavePage (s : State) (k : Nat) : State :=
  match s.core.supply.save with
  | none => s
  | some v =>
    let raw := sealPage (s.savePage v k)
    let records := if k = 5 then (s.book.restored ++ s.book.queue.map Record.bytes).take 518 else v.records
    let v1 := { v with next := k + 1, good := v.good + 1, records }
    let base := if k = 0 then (List.range 81).foldl (fun t j => Tab.put (fun _ => 0) t (saveKey v.slot j) 0) s.nv.saves
      else s.nv.saves
    { s with
      nv := { s.nv with saves := Tab.put (fun _ => 0) base (saveKey v.slot k) raw, saveLast := v.slot }
      core := { s.core with supply := { s.core.supply with save := some v1 } } }

/-- A completed calibration unit leaves the queue; sweep flag bit 2 is set with the last page of the newest result (R153). -/
def Core.calibrationPage (c : Core) (p : Nat) (last : Bool) (w : Option SweepStore) : Core :=
  match c.cal with
  | [] => c
  | (q, n, x) :: r =>
    let c1 := { c with cal := if n ≤ 1 then r else (q, n - 1, x) :: r }
    if last && w.isSome && bit (c1.pe p 0x1C 7) 0 && !r.any (fun e => e.1 = p) then c1.setEntBit (pIdx p 0x1C) 7 2 true else c1

/-- The effect of the unit in progress when it completes (R25, R403): the MRAM holds it, and the queue it came from goes on. -/
def State.unitEffect (s : State) : State :=
  match s.nv.unit with
  | none => s
  | some u =>
    let s1 := { s with nv := s.nv.perform u }
    match u with
    | .book _ => { s1 with book := { s.book with queue := s.book.queue.tail }, core := s.core.wrapAdd 32 0x6406 0 1 }
    | .restored _ => { s1 with book := { s.book with restored := s.book.restored.tail }, core := s.core.wrapAdd 32 0x6406 0 1 }
    | .persist _ => { s1 with core := { s.core with persist := s.core.persist.tail } }
    | .save k => s.writeSavePage k
    | .calibration p last w => { s1 with core := s.core.calibrationPage p last w }
    | .image _ _ _ | .erase _ | .supersede _ => s1

/-- A reset command's drain is over (R36): the queue is written out, or its time is. -/
def State.drained (s : State) : State :=
  match s.book.drainBy with
  | none => s
  | some t =>
    if t ≤ s.core.now || (s.nv.unit.isNone && s.book.queue.isEmpty && s.book.restored.isEmpty) then s.orderReset 2 else s

/-- The unit in progress completes: the next one starts, a save ends with its trailer or where no unit may start (R348,
R359), and a reset that waits for the queue follows. -/
def State.completeUnit (s : State) : State :=
  let s1 := s.unitEffect
  let s2 := ({ s1 with nv := { s1.nv with unit := none } }).kick
  let s3 := match s2.core.supply.save with
    | some v => if v.next = 81 then s2.endSave 1 else if s2.core.thermalDown then s2.endSave 2 else s2
    | none => s2
  s3.drained

def execNvUnitComplete (s : State) : Out := .next (if s.nv.unit.isSome then s.completeUnit else s)

/-- The trailer page of a save is written: its unit is the last of the save (R358). -/
def execSaveComplete (s : State) : Out := .next (if s.nv.unit = some (.save 80) then s.completeUnit else s)

/-- VHOLD has fallen below 3.00 V during a save (R359): the page in progress is lost and no further page is written. -/
def execVholdRunsOut (s : State) : Out :=
  .next (if s.core.supply.save.isNone then s
    else
      let lost := match s.nv.unit with | some (.save _) => true | _ => false
      let s1 := if lost then { s with nv := { s.nv with unit := none } } else s
      (s1.endSave 2).kick)

/-- Begins a save (R358), in the slot after the one used last. -/
def State.beginSave (s : State) (rail : Nat) : State :=
  let c := s.core
  if c.thermalDown then s
  else
    let newest := (s.nv.saves.filterMap (fun e => if e.1 % 81 = 0 && pageGood e.2 then some (field (leBytes 8 e.2) 4 4) else none)).foldl
      (fun m x => if diff32 x m < 2 ^ 31 then x else m) 0
    let v : Save := ⟨(s.nv.saveLast + 1) % 12, (newest + 1) % 2 ^ 32, 0, 0, c.now, c.clock, c.ent 0x1221 0, rail, []⟩
    let c1 := ((((c.setEnt 0x6110 2 v.seq).setEnt 0x6110 3 c.clock).setEnt 0x6110 5 0).setEnt 0x6110 6 rail).setEntBit 0x6100 0 2 true
    ({ s with core := { c1 with supply := { c1.supply with save := some v } } }).kick

/-- The sag decision on a rail from VDD_CORE to VDD_IO (R355, R356). -/
def State.sag (s : State) (rail millivolts : Nat) : State :=
  let s0 := s.onCore (fun c =>
    let c1 := (c.count 0x6102 (rail + 1) 1).setEnt 0x6101 (rail + 1) (min 65535 millivolts)
    { c1 with supply := { c1.supply with lastSag := c1.now } })
  if s.core.supply.episodeAt.isSome then s0
  else
    let s1 := s0.onCore (fun c =>
      let c1 := { c with supply := { c.supply with episodeAt := some c.now, forced := true } }
      let c2 := (c1.setEntBit 0x6100 0 1 true).withdraw 1
      (c2.emit 43 0x0F01 (d8 rail ++ d16 (min 65535 millivolts))).refreshConverters)
    s1.beginSave rail

/-- A sag decision (R355). VDD_FIELD is not of the sag set (R362): only its counter moves. -/
def execSagDecision (rail : Fin 7) (millivolts : Nat) (s : State) : Out :=
  .next (if s.core.phase = .held then s
    else if rail.val = 6 then s.onCore (fun c => (c.count 0x6102 7 1).setEnt 0x6101 7 (min 65535 millivolts))
    else s.sag rail millivolts)

/-- A rail from VDD_CORE to VDD_IO has stood below brown-out for 16 ticks (R355, R359). -/
def execBrownOut (rail : Fin 6) (s : State) : Out :=
  .next (if s.core.phase = .held then s
    else (s.onCore (fun c => { (c.setEntBit 0x6100 0 0 false) with
      supply := { c.supply with browned := decide (rail.val < 6) } })).afterSave)

/-- The conditions of R360 that the part itself holds: an episode, no brown-out, no save in progress, and 10 ms. -/
def Core.mayRecover (c : Core) : Bool :=
  c.supply.episodeAt.isSome && !c.supply.browned && c.supply.save.isNone &&
    max c.supply.saveEnd c.supply.lastSag + 4915200 ≤ c.now

/-- An episode ends without a reset (R360): the header page of its save goes to the engine as superseded. -/
def State.recover (s : State) : State :=
  let from_ := s.core.supply.episodeAt.getD s.core.now
  let saved := s.core.ent 0x6110 1 = 1 || s.core.ent 0x6110 1 = 2
  let s1 := if saved then { s with nv := { s.nv with superseding := some s.nv.saveLast } } else s
  (s1.onCore (fun c =>
    let c0 := if saved then c.setEnt 0x6110 1 3 else c
    let c1 := ((c0.setEntBit 0x6100 0 1 false).count 0x6106 0 1).emit 43 0x0F02 (d32 (c0.now - from_))
    (({ c1 with supply := { c1.supply with episodeAt := none } }).restoreToken 1).refreshConverters.endForcing.refreshPaths)).kick

def execSagRecovery (s : State) : Out := .next (if s.core.mayRecover then s.recover else s)

/-- A 1 ms reading of VHOLD (R357). -/
def Core.holdup (c : Core) (mv : Nat) : Core :=
  let num : Int := 2 * (c.ent 0x6104 0 : Int) * ((mv : Int) * mv - 9000000)
  let e := (max 0 (openRound num 5000000)).toNat
  let was := c.entBit 0x6100 0 3
  -- readiness compares the exact figure: 3,300 µJ to become ready, below 3,000 µJ to be ready no longer
  let is := if was then !decide (num < 3000 * 5000000) else decide (3300 * 5000000 ≤ num)
  let c1 := (c.setEnt 0x6101 8 (min 65535 mv)).setEnt 0x6105 0 (min 65535 e)
  if is = was then c1
  else (c1.setEntBit 0x6100 0 3 is).emit 43 0x0F04 (d8 (if is then 1 else 0) ++ d32 e)

def execHoldupReading (millivolts : Nat) (s : State) : Out := s.event Core.awake (fun c => c.holdup millivolts)

/-- Field supply lost (R362): the stop input counts as low, each encoder as faulted, the remote diodes give no value, and TW3
stops: a transfer in progress ends with a bus error (R393), whose byte and bit are open. -/
def Core.fieldDown (c : Core) (mv : Nat) : Core :=
  let c1 := (((c.setEnt 0x6121 0 0).setEntBit 0x6100 0 5 false).setEnt 0x6101 7 (min 65535 mv)).emit 43 0x0F06
    (d8 0 ++ d16 (min 65535 mv))
  let c2 := c1.each [0, 1] (fun c a => if c.ent (0x4800 + a * 16) 1 = 1 then c.axisFault a 3 else c)
  let c2 := c2.each [0, 1, 2, 3] (fun c d => c.setEnt (0x6020 + d) 5 0x8000)
  let t := c2.twc 3
  let c3 := match t.running with
    | some i =>
      let b := c2.draw
      let k := b.2.drawIn 0 8
      ((((k.2.setTwc 3 { t with running := none, wire := none }).twFail 3 6 i).count 0x6323 8 1).emit 48 0x1105
        (d8 b.1 ++ d8 k.1.toNat))
    | none => c2
  let c4 := if c3.twState 3 = 0 then c3 else c3.setTwState 3 7
  ((c4.twApply 3).twServe 3).refreshHk

def execFieldSupplyLost (millivolts : Nat) (s : State) : Out :=
  s.event (fun c => c.awake && c.ent 0x6121 0 = 1) (fun c => c.fieldDown millivolts)

/-- Field supply present again (R362). TW3 checks its bus; the stop input's 10 s start here. -/
def Core.fieldUp (c : Core) (mv : Nat) : Core :=
  let c1 := (((c.setEnt 0x6121 0 1).setEntBit 0x6100 0 5 true).setEnt 0x6101 7 (min 65535 mv)).emit 43 0x0F06
    (d8 1 ++ d16 (min 65535 mv))
  let c2 := if c1.twState 3 = 7 then (c1.setTwc 3 { c1.twc 3 with checked := false, checkAt := c1.now, highAt := c1.now }).setTwState 3 1 else c1
  { c2 with guard := { c2.guard with netAt := c2.now } }.refreshHk

def execFieldSupplyRestored (millivolts : Nat) (s : State) : Out :=
  s.event (fun c => c.awake && c.ent 0x6121 0 = 0) (fun c => c.fieldUp millivolts)

end Sys2Proof.Machine
end

