-- ==== Sys2Proof/Machine/Commit.lean ====
section
/-! DEFINITION. Commits (R315 to R318): the checks of a configuration in the order of the chapters (R88, R191, R237, R301,
R383), and what a new configuration changes. -/

namespace Sys2Proof.Machine

/-- Whether an entry is RWD, and whether it is twin-local (R262). -/
def rwdKey (k : Nat) : Bool := (rowOf (k / 256) (k % 256)).any (fun r => r.acc = .rwd)
def twinLocalKey (k : Nat) : Bool := (rowOf (k / 256) (k % 256)).any (fun r => r.marks.contains .twinLocal)

/-- R73 on one side of a path: its LO's frequency is not 0, and f_c meets its conditions. -/
def Cfg.sideOk (g : Cfg) (p : Nat) (tx : Bool) : Bool :=
  let b := if tx then g.txBinding p else g.rxBinding p
  (match bindLo b with | some l => g (0x1210 + l) 1 ≠ 0 | none => true) &&
    freqOk (convFreq (g (pIdx p 0) 8) b (g.loCheck b)) (if tx then txBoundary else rxBoundary) (g.rate p)

/-- What the configured paths up to `p` cost: fabric units, blocks and block-units (R21). -/
def Cfg.costs (g : Cfg) (p : Nat) : Nat × Nat × Nat :=
  let l := (List.range (p + 1)).filter g.configured
  ((l.map (fun q => unitsOf (g.rate q))).sum, (l.map g.blocks).sum, (l.map (fun q => g.blocks q * unitsOf (g.rate q))).sum)

/-- The checks of R88 on one configured path: the first that fails, with its abort code. `probes` says that the commit names
a probe entry on the path where the mode does not allow it (R99). -/
def Cfg.pathRefusal (g : Cfg) (probes : Nat → Bool) (p : Nat) : Option (Nat × Nat) :=
  let rate := g.rate p
  let src := g.source p
  let role := if g.isUl p then 2 else 1
  let rfinOk := fun (n : Nat) => n < 8 && g 0x2800 (n + 1) = role
  let check1 := epListed src && (match epKind src with
    | 1 => rfinOk (epNum src)
    | 2 => rfinOk (g (0x3250 + epNum src) 1) && rfinOk (g (0x3250 + epNum src) 2)
    | 3 => streamRate (g.inStream (epPort src) (epNum src)) = rate
    | _ => false)
  let sinks := g.sinks p
  let sinkGood := fun (e : Nat) => match epKind e with
    | 4 => g 0x2801 (epNum e + 1) = 3 - role
    | 5 => streamRate (g.outStream (epPort e) (epNum e)) = rate &&
        (g.streamPaths e).all (fun q => g.rate q = rate && g.streamLatency q = g.streamLatency p)
    | _ => false
  let ref := g (pIdx p 0x18) 3
  let check2 := !sinks.isEmpty && decide sinks.Nodup && sinks.all sinkGood && (ref = 0 || sinks.contains ref)
  let second := g.second p
  let check3 := if second = 0 then g (pIdx p 0x0A) 3 = 0
    else epKind src = 3 && epKind second = 3 && epPort src ≠ epPort second &&
      streamRate (g.inStream (epPort second) (epNum second)) = rate
  let check4 := (!g.rxSide p || g.sideOk p false) && (!g.txSide p || (g.sideOk p true &&
    (g.rfouts p).all (fun o => (g.boundTo o).all (fun q => g.above q = g.above p))))
  let id := g.response p
  let check5 := if id < 8 then !probes p else romRate id = rate
  let hi := if g.offAir p then 122 else 32767
  let lat := fun (l m : Nat) => max 88 m ≤ l && l ≤ hi
  let check6 := lat (g.latency p) (g.lMin p true) && lat (g.streamLatency p) (g.lMin p false)
  let cost := g.costs p
  if !check1 then some (1, 0x0403)
  else if !check2 then some (2, 0x0403)
  else if !check3 then some (3, 0x0403)
  else if !check4 then some (4, 0x0403)
  else if !check5 then some (5, 0x0403)
  else if !check6 then some (6, 0x0402)
  else if g.needsCeiling p ≠ decide (g.blocks p ≠ 0) then some (7, 0x0403)
  else if 128 < cost.1 || 64 < cost.2.1 || 128 < cost.2.2 then some (7, 0x0401)
  else none

/-- R88: the first refusal, as path, check and abort code. -/
def Cfg.pathsRefusal (g : Cfg) (probes : Nat → Bool) : Option (Nat × Nat × Nat) :=
  allPaths.findSome? (fun p =>
    if g.configured p then (g.pathRefusal probes p).map (fun r => (p, r.1, r.2))
    -- a probe entry named on a path that stays unconfigured (R99)
    else if g.response p < 8 && probes p then some (p, 5, 0x0403) else none)

/-- The checks of a configuration in the order of the chapters (R316): the first failure as abort code, with what it leaves in
its chapter's refused-check entry and record. -/
def Cfg.refusal (g : Cfg) (probes : Nat → Bool) : Option (Nat × (Core → Core)) :=
  let note := fun (i item check source code : Nat) (data : List Byte) (c : Core) =>
    ((c.setEnt i 1 check).setEnt i 2 item).emit source code data
  match g.pathsRefusal probes with
  | some (p, k, code) => some (code, fun c => ((c.setEnt 0x2809 1 p).setEnt 0x2809 2 k).emit (2 + p) 0x0301 (d8 p ++ d8 k))
  | none => match g.frontEndRefusal with
    | some (k, item) => some (0x0403, note 0x3204 item k 36 0x0809 (d8 item ++ d8 k ++ d8 item))
    | none => match g.boxRefusal with
      | some (k, item) => some (0x0403, note 0x4386 item k 37 0x0901 (d8 item ++ d8 k ++ d8 item))
      | none => match g.lineRefusal with
        | some (k, item) => some (if k = 3 then 0x0401 else 0x0403, note 0x5150 item k 39 0x0B09 (d8 k ++ d8 item))
        | none => match g.hkRefusal with
          | some (k, item) => some (0x0403, note 0x6205 item k 44 0x1004 (d8 k ++ d8 item))
          | none => none

/-- Whether a change of configuration invalidates a path's output or unconfigures it (R106, R107). DESIGN CHOICE (log 145): a
change of placement does as a change of w or f does. -/
def invalidates (old new : Cfg) (p : Nat) : Bool :=
  old.configured p && (old.rate p ≠ new.rate p || old.response p ≠ new.response p || old.source p ≠ new.source p ||
    (old.rxSide p && new.rxSide p && (old.rxFreq p ≠ new.rxFreq p || old.rxBinding p ≠ new.rxBinding p)) ||
    old.whole p ≠ new.whole p || old.frac p ≠ new.frac p || old (pIdx p 0x0A) 3 ≠ new (pIdx p 0x0A) 3)

/-- The status entries of a path that follow from its configuration (R86, R115). -/
def Core.pathStatus (c : Core) (p : Nat) : Core :=
  let g := c.cfg
  let id := g.response p
  let c1 := ((((c.setPe p 8 2 (romNSec id)).setPe p 8 3 (romLResp id)).setPe p 8 4 (romDelay id)).setPe p 8 5 (romSettle id)).setPe
    p 8 6 (romMask id)
  let c2 := (c1.setPe p 1 3 (g.lMin p true)).setPe p 1 4 (g.lMin p false)
  (c2.setPe p 0x0B 3 (if g.txSide p then 1 else 0)).refreshNco p

/-- The synchronising resets and invalid samples that a commit orders on a path (R105, R106): the broadest reset that
applies. -/
def Core.commitResets (c : Core) (old : Cfg) (p : Nat) : Core :=
  let g := c.cfg
  if !g.configured p then c
  else if old.rate p ≠ g.rate p then c.orderReset p 1 c.clock
  else
    let c1 := if old.source p ≠ g.source p then c.orderReset p 3 c.clock
      else if old.response p ≠ g.response p then c.orderReset p 2 c.clock else c
    let c2 := if (old.rfouts p).isEmpty && !(g.rfouts p).isEmpty then c1.orderReset p 7 c.clock else c1
    if old.whole p ≠ g.whole p || old.frac p ≠ g.frac p || old (pIdx p 0x0A) 3 ≠ g (pIdx p 0x0A) 3 then c2.invalidate p 9
    else c2

/-- The records a commit writes for a path: response change (R116), a probe entry outside SHUNT (R100), and a ROM that is not
vouched for (R114). -/
def Core.commitRecords (c : Core) (old : Cfg) (p : Nat) : Core :=
  let g := c.cfg
  let c1 := if old.response p ≠ g.response p && c.phase = .ready then
      c.emit (2 + p) 0x0402 (d8 p ++ d16 (old.response p) ++ d16 (g.response p)) else c
  if !g.configured p then c1
  else
    let probe := fun (h : Cfg) => h.configured p && h.response p < 8
    let c2 := if probe g && !probe old && c.mode ≠ mShunt then c1.emit (2 + p) 0x0405 [] else c1
    if c.ent 0x2903 1 ≠ 0 && !old.configured p then c2.emit (2 + p) 0x0401 (d8 p) else c2

/-- What a commit does to a Points pair (R198): a pair whose binding or mode changes starts again. -/
def Core.pointsCommit (c : Core) (old : Cfg) (k : Nat) : Core :=
  let g := c.cfg
  let i := 0x3250 + k
  let same := [1, 2, 3].all (fun j => old i j = g i j)
  if same then c
  else
    let c1 := c.setPoints k PointsSt.init
    if g i 3 = 2 && g i 1 < 8 then ((c1.setPointsState k 1 (c.ent i 9)).setPoints k { PointsSt.init with pin := (c.points k).pin })
    else
      let b := if g i 3 = 1 then 1 else 0
      ((c1.setPointsState k 0 b).setEnt i 9 b).setPoints k { PointsSt.init with pin := b == 1 }

/-- A coexistence channel that a commit turns off is idle (R202). -/
def Core.coexCommit (c : Core) (old : Cfg) (k : Nat) : Core :=
  if c.cfg (0x3260 + k) 1 = 0 && old (0x3260 + k) 1 ≠ 0 then
    ((c.setCoex k CoexSt.init).setEnt (0x3260 + k) 4 0).setEntBit 0x3200 0 (6 + k) false
  else c

/-- A new Timetable (R187, R191): record 0x080A, and the pattern and turn-round times that follow from it. -/
def Core.timetableCommit (c : Core) (old : Cfg) : Core :=
  let g := c.cfg
  let c1 := (c.setEnt 0x3210 2 g.entriesInUse.length).each [0, 1, 2, 3] (fun c t =>
    c.setEnt (0x3240 + t) 6 ((g.turnRound t).getD 0))
  if timetableChanges old g then
    let c2 := c1.emit 36 0x080A (d8 0xFF ++ d32 g.framePeriod ++ d32 g.entriesInUse.length)
    -- a running Timetable is not entered part-way either: the new one acts from its next period start
    { c2 with fe := { c2.fe with
        entry := none, lastStart := none
        actFrom := if c2.ttRunning then some (c2.nextPeriod c2.clock) else c2.fe.actFrom } }
  else c1

/-- A new source of frame timing starts unverified (R193). -/
def Core.frameSourceCommit (c : Core) (old : Cfg) : Core :=
  let g := c.cfg
  if old.timingSource ≠ g.timingSource then
    ({ c with fe := { c.fe with verified := 0, missedRun := 0, nearRun := 0, far := none, jump := none, slew16 := 0 } }).setFrameState
      (if g.timingSource ≠ 0 && g.framePeriod ≠ 0 then 1 else 0)
  else c

/-- What a commit does to the front end (R187, R190, R191, R193, R198, R202). -/
def Core.frontEndCommit (c : Core) (old : Cfg) : Core :=
  let g := c.cfg
  let c1 := c.each (List.range 32) (fun c n =>
    if old (0x3220 + n) 5 ≠ g (0x3220 + n) 5 then c.setEnt (0x3220 + n) 7 (1 - c.ent (0x3220 + n) 7) else c)
  let c2 := { c1 with fe := { c1.fe with clipRecorded := false, clipped := [] } }
  let c3 := ((c2.timetableCommit old).each [0, 1] (fun c k => c.pointsCommit old k)).each [0, 1] (fun c k => c.coexCommit old k)
  (c3.frameSourceCommit old).followTime

/-- The levels of a path's block, which read 0x8000 while it is not configured (R8): Express and Stopping, what the canceller
estimates, the Guard's margins. -/
def pathLevels : List (Nat × Nat) :=
  [(0x11, 1), (0x12, 1), (0x13, 1), (0x14, 1), (0x1A, 1), (0x1A, 2), (0x1A, 3), (0x1A, 4), (0x1A, 5), (0x1A, 6)]

/-- The measurements of a path start again where its rate changes (R119, R123). -/
def Core.commitWindows (c : Core) (old : Cfg) (p : Nat) : Core :=
  let c1 := if c.cfg.configured p then c else pathLevels.foldl (fun c e => c.setPe p e.1 e.2 noCdb) c
  if old.rate p = c1.cfg.rate p then c1
  else c1.modPath p (fun s => { s with
    exIn := Power.zero, exOut := Power.zero, stIn := Power.zero, stOut := Power.zero, changes := [], lastWeight := 65536 })

/-- What a commit does to the Guard's receivers (R169, R182): a receiver no longer set up is no longer active, and a path whose
RFOUTs none observes has no check. -/
def Core.guardCommit (c : Core) : Core :=
  let c1 := c.each [0, 1] (fun c k => if c.receiverOn k then c else c.setEntBit 0x3100 0 (4 + k) false)
  c1.each allPaths (fun c p =>
    if [0, 1].any (fun k => c.receiverOn k && (c.cfg.rfouts p).contains (c.ent (0x3110 + k) 2)) then c
    else ((c.setPe p 0x23 5 0).setPe p 0x23 4 noCdb).modGuardPath p (fun g => { g with noValueSince := none })) |>.refreshNode

/-- Brings the part from configuration `old` to the one now in the dictionary (R318, R38). -/
def Core.applyConfig (c : Core) (old : Cfg) : Core :=
  let g := c.cfg
  let c1 := c.each allPaths (fun c p =>
    -- a ramp placed ahead of the activation tick runs on the samples born before it
    let live := c.pe p 1 1 = psLive || c.pe p 1 1 = psUp
    let c0 := c.modPath p (fun s => { s with placed := if live then s.placed else none, offSide := false })
    (((c0.commitWindows old p).pathStatus p).commitResets old p).commitRecords old p)
  let c2 := (c1.setEnt 0x280A 0 (maskOf (allPaths.filter g.configured))).setEnt 0x280B 0 (maskOf (allPaths.filter g.offAir))
  let c3 := c2.setEnt 0x2808 0 (g.costs 31).1
  let c4 := (c3.frontEndCommit old).guardCommit.captureCommit.cancCommit old
  let c5 := (c4.boxCommit old).lineCommit
  let c6 := (c5.each [0, 1, 2, 3] Core.twApply).each [0, 1, 2, 3] Core.twServe
  let c7 := c6.refreshConverters.refreshOverload.refreshTdd
  c7.each allPaths (fun c p =>
    let c' := if g.configured p && !old.configured p then c.refreshNeed p else c
    ((c'.refreshLevel p).refreshGain p).refreshPath p)

/-- The paths whose own entries a list of keys touches. -/
def pathsTouched (w : Tab Nat) : List Nat :=
  allPaths.filter (fun p => w.any (fun e => pIdx p 0 ≤ e.1 / 256 && e.1 / 256 < pIdx p 0x40))

/-- Puts a configuration's values in force, keeping for each path it touches what they replace (R14). -/
def Core.install (c : Core) (w : Tab Nat) : Core :=
  let old := fun (p : Nat) => (w.filterMap (fun e =>
      if pIdx p 0 ≤ e.1 / 256 && e.1 / 256 < pIdx p 0x40 then some (e.1, c.dict.get entryDefault e.1) else none)) ++
    [5, 6].map (fun j => (entKey (pIdx p 1) j, c.pe p 1 j))
  let c1 := { c with dict := w.foldl (fun (d : Tab Nat) (e : Nat × Nat) => Tab.put entryDefault d e.1 e.2) c.dict }
  c1.each (pathsTouched w) (fun c1 p => c1.modPath p (fun s => { s with before := some (c.clock, old p) }))

/-- A STANDBY's held twin-local writes join the pair's commit where R87 and R88 allow them (R262). -/
def Core.withLocal (c : Core) (w : Tab Nat) : Core × Tab Nat :=
  if c.heldLocal.isEmpty then (c, w)
  else
    let both := c.heldLocal.foldl (fun (w : Tab Nat) (e : Nat × Nat) => Tab.insert w e.1 e.2) w
    let c1 := { c with heldLocal := [] }
    match ((c.cfgWith both).pathsRefusal (fun _ => false)) with
    | none => (c1, both)
    | some _ => (c1.exitStep, w)

/-- The scheduled commit takes effect, or is abandoned (R318, R336). -/
def Core.activate (c : Core) (m : Sched) : Core :=
  let c0 := { (c.setEnt 0x1104 5 0) with sched := none }
  if m.writes.any (fun e => rwdKey e.1) && !c.rwdAllowed then
    ((c0.setEnt 0x1104 2 3).emit 40 0x0C13 (d32 m.tick ++ d32 m.owner)).each allPaths
      (fun c p => c.modPath p (fun s => { s with placed := none }))
  else
    let l := c0.withLocal m.writes
    let old := c.cfg
    let c1 := (l.1.install l.2).applyConfig old
    (c1.setEnt 0x1104 2 0).emit 40 0x0C01 (d32 m.tick ++ d16 m.writes.length ++ d32 m.owner ++ d16 (c.ent 0x1104 7))

def execCommitActivation (s : State) : Out :=
  .next (match s.core.sched with
    | some m => if s.core.phase = .ready && m.tick ≤ s.core.clock then s.onCore (fun c => c.activate m) else s
    | none => s)

/-- Whether a commit of `w` names a probe entry on a path where the mode does not allow it (R99). -/
def Core.probesNamed (c : Core) (w : Tab Nat) (p : Nat) : Bool :=
  !c.rwdAllowed && ((w.find? (entKey (pIdx p 8) 1)).isSome || (!c.cfg.configured p && (c.cfgWith w).configured p))

/-- What check 1 of R191 concerns: the Timetable entry, the port or the path that changes; 0xFF for the period or a pattern
word. -/
def frontEndItem (old new : Cfg) : Nat :=
  if old 0x3210 1 ≠ new 0x3210 1 then 0xFF
  else match (List.range 64).find? (fun i => old 0x3211 (i + 1) ≠ new 0x3211 (i + 1)) with
    | some i => i
    | none =>
      if (List.range 16).any (fun i => old 0x3212 (i + 1) ≠ new 0x3212 (i + 1)) then 0xFF
      else match [0, 1, 2, 3].find? (fun t => old.portRfout t ≠ new.portRfout t || old.portSide t ≠ new.portSide t) with
        | some t => t
        | none => (allPaths.find? (fun p => old.isTdd p ≠ new.isTdd p)).getD 0xFF

/-- The activation tick of a commit accepted now, or the code that refuses it (R317, check 1 of R191). -/
def Core.activationTick (c : Core) (new : Cfg) : Nat × Nat :=
  let first := c.clock + (if c.paired then 2048 else 1024)
  let need := c.ttRunning && frontEndChanges c.cfg new
  let a := c.ent 0x1104 1
  if a = 0 then (0, if need then (c.nextPeriod first).toNat else ceilMul 1024 first)
  else if a < first then (0x0404, 0)
  else if c.clock + 29491200000 < a then (0x0405, 0)
  else if need && c.periodOf a ≠ a then (0x0405, 1)
  else (0, a)

/-- The writes of an accepted commit go to the STANDBY, one record each (R259, R260): originator, tag, activation tick, key,
value. Twin-local entries stay (R262). -/
def Core.sendCommit (c : Core) (w : Tab Nat) (owner tag tick : Nat) : Core :=
  w.foldl (fun c e =>
    if twinLocalKey e.1 then c
    else c.twinSend 0x06 (d32 owner ++ d16 tag ++ leBytes 8 tick ++ d32 e.1 ++
      leBytes ((rowOf (e.1 / 256) (e.1 % 256)).map (fun r => r.ty.width) |>.getD 8) e.2)) c

/-- Empties the pending set. -/
def Core.clearPending (c : Core) : Core := { ((c.setEnt 0x1104 3 0).setEnt 0x1104 4 0) with pend := [] }

/-- Places the ramps of the paths that a commit will invalidate (R107). -/
def Core.placeRamps (c : Core) (w : Tab Nat) (tick : Nat) : Core :=
  let old := c.cfg
  let new := c.cfgWith w
  c.each (allPaths.filter (invalidates old new)) (fun c p => c.modPath p (fun s => { s with placed := some tick }))

/-- A write of 1 to 0x1104.02 (R316): the checks in their order, and an accepted commit is scheduled. -/
def Core.commit (c : Core) (o : Origin) : Nat × Core :=
  let refuse := fun (code : Nat) (c : Core) => (code, c.setEnt 0x1104 2 2)
  let w := c.pend
  let new := c.cfgWith w
  if w.isEmpty then refuse 0x0408 c
  else if c.ent 0x1104 4 ≠ originator o then refuse 0x0407 c
  else if c.sched.isSome then refuse 0x0406 c
  else if w.any (fun e => rwdKey e.1) && !c.rwdAllowed then refuse 0x0202 c
  else
    let t := c.activationTick new
    if t.1 ≠ 0 then
      refuse t.1 (if t.2 = 0 then c
        else
          let item := frontEndItem c.cfg new
          ((c.setEnt 0x3204 1 1).setEnt 0x3204 2 item).emit 36 0x0809 (d8 item ++ d8 1 ++ d8 item))
    else match new.refusal (c.probesNamed w) with
      | some (code, f) => refuse code (f c)
      | none =>
        let c1 := ((((c.clearPending).setEnt 0x1104 2 1).setEnt 0x1104 5 t.2).setEnt 0x1104 6 (originAddress o)).setEnt 0x1104 7 o.tag.toNat
        let c2 := ({ c1 with sched := some ⟨w, t.2, originator o⟩ }).placeRamps w t.2
        (0, c2.sendCommit w (originator o) o.tag.toNat t.2)

/-- A write of 2 discards the pending set (R316). -/
def Core.discard (c : Core) (o : Origin) : Nat × Core :=
  if !c.pend.isEmpty && c.ent 0x1104 4 ≠ originator o then (0x0407, c.setEnt 0x1104 2 2)
  else (0, c.clearPending.setEnt 0x1104 2 5)

def commitAct (o : Origin) (v : Nat) : Act := coreAct (fun c =>
  if v = 1 then c.commit o else if v = 2 then c.discard o else (0x0301, c))

def execCommit (o : Origin) (s : State) : Out := .next (s.serveWrite o 0x1104 2 (d8 1) (commitAct o 1))
def execDiscard (o : Origin) (s : State) : Out := .next (s.serveWrite o 0x1104 2 (d8 2) (commitAct o 2))

/-- The owner of the pending set has sent no request for 10 s (R315): the set is discarded, record 0x0C14. -/
def execPendingSetLapse (s : State) : Out :=
  s.event (fun c => !c.pend.isEmpty && c.ownerSeen + 10 * second ≤ c.now)
    (fun c => c.clearPending.emit 40 0x0C14 (d32 c.pend.length ++ d32 (c.ent 0x1104 4)))

/-- A STAGED write joins the pending set (R315): the first owns it, others are refused. -/
def Core.stageWrite (c : Core) (o : Origin) (i sub v : Nat) : Nat × Core :=
  if !c.pend.isEmpty && c.ent 0x1104 4 ≠ originator o then (0x0407, c)
  else
    let p := Tab.insert c.pend (entKey i sub) v
    let c1 := { ((c.setEnt 0x1104 3 p.length).setEnt 0x1104 4 (originator o)) with pend := p, ownerSeen := c.now }
    (0, c1)

end Sys2Proof.Machine
end

