-- ==== Sys2Proof/Machine/Host.lean ====
section
/-! DEFINITION. The transports at this part's own side: HSPI with its request buffer and response queue, Line transactions
originated for the host, the TWT window, counters and IRQ causes (R310 to R313, R319 to R322, R325, R394 to R396). -/

namespace Sys2Proof.Machine

/-- Step 1 of R309 on a request's bytes: opcode, a length that matches it and stays in `limit`, reserved fields 0. -/
def wellFramed (req : List Byte) (limit : Nat) : Bool :=
  let n := field req 20 2
  let op := field req 0 1
  (op = 1 || op = 2) && req.length ≤ limit && req.length = 22 + n && (op = 1) == (n = 0) && field req 1 1 = 0 &&
    field req 2 2 < 16384 && field req 19 1 = 0

/-- The FRAMED ports that link this chip to its partner (R294). -/
def Core.partnerPorts (c : Core) : List Nat :=
  if c.ent 0x5007 0 = 0 then [] else ports3.filter (fun x => c.framed x && c.ent (0x5110 + x) 4 = c.ent 0x5007 0)

/-- The code with which the originating node refuses a request for the Line, 0 where it sends it (R309 to R313). -/
def State.sendRefusal (s : State) (b : List Byte) : Nat :=
  let c := s.core
  let req := hspiBody b
  let broadcast : Bool := hspiDest b = 0xFFFF
  if !wellFramed req 1008 then 0x0601
  else if broadcast && (hspiRole b ≠ 0 || field req 0 1 = 1) then 0x0601
  else if 60000 < hspiTimeout b then 0x0301
  else if (s.link.flights.find? (field req 2 2)).isSome then 0x0602
  else if (if hspiDest b = c.pairAddress then c.partnerPorts else c.portsFor (hspiDest b) none).isEmpty then 0x0605
  else 0

/-- A request of the host goes to the Line (R310, R311, R313), or is refused by this node. Its deadline is stamped as it is
sent. A broadcast is answered at once, and its tag is free again. -/
def State.sendLine (s : State) (b : List Byte) : State :=
  let c := s.core
  let req := hspiBody b
  let code := s.sendRefusal b
  if code ≠ 0 then s.queueResponse c.address (c.shortResponse req code)
  else
    let time := if hspiTimeout b = 0 then c.ent 0x1130 0 else hspiTimeout b
    let deadline := if c.timeUncommon then 0 else (c.clock + time * ms) % 2 ^ 64
    let body := req.take 8 ++ leBytes 8 deadline ++ req.drop 16
    let dest := hspiDest b
    let ports := if dest = c.pairAddress then c.partnerPorts else c.portsFor dest none
    let s1 := s.onCore (fun c =>
      (c.queuePacket ports false (packetOf dest c.address (hspiRole b) (c.ent 0x5101 5) body)).wrapAdd 32 0x5130 1 1)
    if dest = 0xFFFF then s1.queueResponse c.address (c.shortResponse req 0)
    else
      { (s1.onCore (fun c => c.setEnt 0x1131 0 (c.ent 0x1131 0 + 1))) with
        link := { s1.link with flights := s1.link.flights.insert (field req 2 2) ⟨dest, c.now + time * ms, false, req.take 22⟩ } }

/-- Counts a transport write that is ignored (R319, R322). -/
def State.ignored (s : State) : State := s.onCore (fun c => c.count 0x1133 6 1)

/-- HSPI command 0x01 (R319): ignored and counted while the buffer is full, discarded where it ends early. A request for the
Line is sent as it arrives; one for this node, or one whose answer finds no room, waits in the buffer. -/
def execHspiRequest (bytes : List Byte) (s : State) : Out :=
  .next (
    if s.core.phase ≠ .ready then s
    else if s.link.hspi.isSome then s.ignored
    else if bytes.length < 8 || bytes.length < 8 + field bytes 6 2 then s
    else if !s.core.hspiLocal bytes && s.room 16 then s.sendLine bytes
    else { s with link := { s.link with hspi := some bytes } })

/-- HSPI command 0x02 (R319): the oldest response leaves the queue; an empty queue answers a wrapper of length 0. -/
def execHspiResponse (s : State) : Out :=
  .next (
    if s.core.phase ≠ .ready then s
    else match s.link.responses with
      | [] => { s with link := { s.link with lastSent := wrapResponse s.core.address [] } }
      | r :: rest => { s with link := { s.link with responses := rest, lastSent := r } })

/-- The status byte (R319). -/
def State.statusByte (s : State) : Nat :=
  flagMask [(0, s.link.hspi.isNone), (1, !s.link.responses.isEmpty), (2, s.link.overflowed), (3, s.core.irqAsserted)]

/-- HSPI command 0x03 (R319). -/
def execHspiStatus (s : State) : Out :=
  .next (
    if s.core.phase ≠ .ready then s
    else { s with link := { s.link with
      lastSent := d8 s.statusByte ++ d16 (match s.link.responses with | r :: _ => r.length - 8 | [] => 0), overflowed := false } })

/-- A Line transaction's timeout expires (R310): response 0x0604, and the tag's quarantine. A full queue discards that
response as it discards any other (R320). -/
def State.timedOut (s : State) (tag : Nat) (f : Flight) : State :=
  let s1 := { (s.onCore (fun c => (((c.setEnt 0x1131 0 (c.ent 0x1131 0 - 1)).count 0x1133 3 1).tally 40 0x0C10 []))) with
    link := { s.link with flights := s.link.flights.insert tag { f with until_ := s.core.now + second, quarantined := true } } }
  if s1.room 16 then s1.queueResponse s1.core.address (s1.core.shortResponse f.request 0x0604)
  else
    { (s1.onCore (fun c => ((c.count 0x1133 4 1).irq 3).tally 40 0x0C11 [])) with link := { s1.link with overflowed := true } }

def execTransactionTimeout (tag : Half) (s : State) : Out :=
  .next (match s.link.flights.find? tag.toNat with
    | some f => if !f.quarantined && f.until_ ≤ s.core.now then s.timedOut tag.toNat f else s
    | none => s)

/-- The end of a quarantine (R310). -/
def execTagQuarantineEnd (tag : Half) (s : State) : Out :=
  .next (match s.link.flights.find? tag.toNat with
    | some f => if f.quarantined && f.until_ ≤ s.core.now then
        { s with link := { s.link with flights := s.link.flights.drop tag.toNat } } else s
    | none => s)

/-- Whether TWT answers its address (R39, R394). -/
def State.twtOn (s : State) : Bool := s.core.phase = .ready && s.core.ent 0x6340 1 = 1

/-- A doorbell write (R322). -/
def State.doorbell (s : State) (v : Nat) : State :=
  if v = 1 && s.link.mailState = 0 then { s with link := { s.link with mailState := 1 } }
  else if v = 0 && s.link.mailState = 2 then { s with link := { s.link with mailState := 0 } }
  else s.ignored

def execDoorbellSubmit (s : State) : Out := .next (if s.twtOn then s.doorbell 1 else s)
def execDoorbellRelease (s : State) : Out := .next (if s.twtOn then s.doorbell 0 else s)

/-- A byte written at the pointer (R322, R395). -/
def State.twtPut (s : State) (p : Nat) (b : Byte) : State :=
  let l := s.link
  if p = 1 then s.doorbell b.toNat
  else if p = 0 || p = 2 || p = 3 || p = 6 || p = 7 || l.mailState ≠ 0 then s.ignored
  else if p = 4 then { s with link := { l with mailLength := l.mailLength / 256 * 256 + b.toNat } }
  else if p = 5 then { s with link := { l with mailLength := l.mailLength % 256 + 256 * b.toNat } }
  else { s with link := { l with mail := setAt l.mail (p - 8) b } }

/-- The pointer advances, from 0xFF to 0x00 (R395). -/
def State.advance (s : State) : State := s.onCore (fun c => c.setEnt 0x6340 3 ((c.ent 0x6340 3 + 1) % 256))

/-- A byte written in a TWT transfer (R395): the first sets the pointer. -/
def execTwtWriteByte (first : Bool) (b : Byte) (s : State) : Out :=
  .next (
    if !s.twtOn then s
    else if first then s.onCore (fun c => (c.setEnt 0x6340 3 b.toNat).wrapAdd 32 0x6340 5 1)
    else (s.twtPut (s.core.ent 0x6340 3) b).advance)

/-- The byte TWT sends from `p`, and the state: reading the doorbell gives an open value, reserved bytes read 0. -/
def State.twtGet (s : State) (p : Nat) : Nat × State :=
  let l := s.link
  match p with
  | 0 => (l.mailState, s)
  | 1 => let r := s.core.draw; (r.1 % 256, { s with core := r.2 })
  | 2 | 3 | 6 | 7 => (0, s)
  | 4 => (l.mailLength % 256, s)
  | 5 => (l.mailLength / 256 % 256, s)
  | _ => ((l.mail.getD (p - 8) 0#8).toNat, s)

/-- A byte read from TWT (R395). -/
def execTwtReadByte (first : Bool) (s : State) : Out :=
  .next (
    if !s.twtOn then s
    else
      let s1 := if first then s.onCore (fun c => c.wrapAdd 32 0x6340 5 1) else s
      let r := s1.twtGet (s1.core.ent 0x6340 3)
      ({ r.2 with link := { r.2.link with twtSent := r.1 } }).advance)

/-- A broken transfer (R396): a byte broken off leaves everything; a repeated START in place of an acknowledge abandons the
read, with the pointer past the byte sent. -/
def execTwtBrokenTransfer (k : TwtBreak) (s : State) : Out :=
  .next (match k with
    | .midByte => s
    | .restartAtAcknowledge =>
      if s.twtOn then s.onCore (fun c => (c.count 0x6340 7 1).tallyOne 49 0x1109 (d8 (c.ent 0x6340 3))) else s)

/-- SCL has stayed low past the TWT timeout (R396). -/
def execTwtTimeout (s : State) : Out :=
  .next (if s.twtOn then s.onCore (fun c => (c.count 0x6340 6 1).emit 49 0x1108 (d8 (c.ent 0x6340 3))) else s)

/-- Whether clearing index `v`, or every counter of the node for 0xFFFF, clears the counter under a key (R325). -/
def clears (v key : Nat) : Bool :=
  (v = 0xFFFF || key / 256 = v) &&
    (rowOf (key / 256) (key % 256)).any (fun r => r.isStat && !r.marks.contains .notClearable)

/-- Whether an index holds a statistics counter. -/
def holdsCounter (v : Nat) : Bool := (rowsFor (canon v).1).any (fun r => r.index = (canon v).1 && r.isStat)

/-- A write of 0x1132 (R325). -/
def counterAct (o : Origin) (v : Nat) : Act := coreAct (fun c =>
  if v = 0x1120 || v = 0x1121 then (0x0409, c)
  else if v ≠ 0xFFFF && !holdsCounter v then (0x0101, c)
  else
    let c1 := { c with dict := c.dict.filter (fun e => !clears v e.1), sticky := c.sticky.filter (fun k => !clears v k) }
    let c2 := if v = 0x6111 || v = 0xFFFF then c1.persistUnit [(entKey 0x6111 0, 0)] else c1
    (0, c2.emit 40 0x0C12 (d16 v ++ d32 (originator o))))

def execCounterClear (o : Origin) (v : Half) (s : State) : Out :=
  .next (s.serveWrite o 0x1132 0 (d16 v.toNat) (counterAct o v.toNat))

/-- A write of 0x1134 clears the causes written as 1 (R321). -/
def irqAct (v : Nat) : Act := coreAct (fun c =>
  (0, c.setEnt 0x1134 0 (maskOf ((bitsOf 32 (c.ent 0x1134 0)).filter (fun k => !bit v k)))))

def execIrqClear (o : Origin) (v : Word) (s : State) : Out :=
  .next (s.serveWrite o 0x1134 0 (d32 v.toNat) (irqAct v.toNat))

end Sys2Proof.Machine
end

