-- ==== Sys2Proof/Machine/Jtag.lean ====
section
/-! DEFINITION. The boundary scan (R440 to R442). -/

namespace Sys2Proof.Machine

/-- Loads an instruction: the register it selects, and what is in force. -/
def State.loadIr (s : State) (ir dr : Nat) (inForce : Option Nat) : State :=
  { s with jtag := { s.jtag with ir := ir, dr := dr, inForce := inForce } }

/-- EXTEST, CLAMP and HIGHZ act only while RESET_N is low; loaded while it is high each acts as BYPASS (R442). While one is in
force the part stays in reset, which RESET_N low does. -/
def State.scanOutput (s : State) (ir dr : Nat) : State :=
  if s.core.resetLow then s.loadIr ir dr (some ir) else s.loadIr ir 2 none

def execJtagReset (s : State) : Out := .next { s with jtag := { s.jtag with ir := 0x01, inForce := none, dr := 1 } }
def execExtest (s : State) : Out := .next (s.scanOutput 0x00 0)
def execIdcode (s : State) : Out := .next (s.loadIr 0x01 1 none)

/-- SAMPLE/PRELOAD: the boundary-scan register takes what the balls carry, which nothing in this model holds whole: an open
value. -/
def execSamplePreload (s : State) : Out :=
  .next (
    let r := s.core.draw
    let s1 := { s with core := r.2 }
    { s1 with jtag := { s1.jtag with ir := 0x02, inForce := none, dr := 0, boundary := r.1 } })

def execClamp (s : State) : Out := .next (s.scanOutput 0x04 2)
def execHighz (s : State) : Out := .next (s.scanOutput 0x05 2)
def execBypass (s : State) : Out := .next (s.loadIr 0xFF 2 none)

/-- What the identification register reads (R440). -/
def identification : Nat := 0x13216993

end Sys2Proof.Machine
end

