-- ==== Sys2Proof/Machine/Thermal.lean ====
section
/-! DEFINITION. Temperature sensing and thermal management (R340 to R352). -/

namespace Sys2Proof.Machine

/-- Insertion into a rising list, and sorting. -/
def insertI (x : Int) : List Int → List Int
  | [] => [x]
  | y :: r => if x ≤ y then x :: y :: r else y :: insertI x r
def sortI (l : List Int) : List Int := l.foldr insertI []

/-- Twice the median of sixteen readings. -/
def median2 (l : List Int) : Int := let s := sortI l; s.getD 7 0 + s.getD 8 0

/-- An on-die reading out of range, or too far from the median (R341). -/
def badReading (x m2 : Int) : Bool := x < -5500 || 15000 < x || 5000 < (2 * x - m2).natAbs

/-- Notes whether sensor `k` is in range on this reading (R341): faulty at once, good again after four. -/
def Core.sensorState (c : Core) (k : Nat) (bad : Bool) : Core :=
  let was := c.entBit 0x6007 0 k
  let run := if bad then 0 else c.therm.goodRun.get (fun _ => 0) k + 1
  let c1 := { c with therm := { c.therm with goodRun := c.therm.goodRun.put (fun _ => 0) k (if was then run else 0) } }
  if bad && !was then ((c1.setEntBit 0x6007 0 k true).count 0x6040 4 1).emit 42 0x0E03 []
  else if was && 4 ≤ run then
    ({ (c1.setEntBit 0x6007 0 k false) with therm := { c1.therm with goodRun := c1.therm.goodRun.put (fun _ => 0) k 0 } }).emit
      42 0x0E03 []
  else c1

/-- The value a sensor gives now: 0 to 15 on-die, 16 to 19 remote. -/
def Core.sensor (c : Core) (k : Nat) : Option Int :=
  let v := if k < 16 then c.ent 0x6011 (k + 1) else c.ent (0x6020 + (k - 16)) 5
  if v = 0x8000 then none else some (sInt 16 v)

/-- The sensors' readings of a cycle (R340 to R342). Without field supply the remote diodes give no value (R362). -/
def Core.readSensors (c : Core) (r : SensorCycle) : Core :=
  let on := (List.range 16).map (fun k => r.onDie.getD k 0)
  let m2 := median2 on
  let c1 := c.each (List.range 16) (fun c k => c.sensorState k (badReading (on.getD k 0) m2))
  let c2 := c1.each (List.range 16) (fun c k =>
    if c.entBit 0x6007 0 k then c.setEnt 0x6011 (k + 1) 0x8000
    else
      let x := on.getD k 0
      let c' := c.setS 16 0x6011 (k + 1) x
      if c'.ent 0x6012 (k + 1) = 0x8000 || c'.entS 16 0x6012 (k + 1) < x then c'.setS 16 0x6012 (k + 1) x else c')
  c2.each [0, 1, 2, 3] (fun c d =>
    let i := 0x6020 + d
    if c.ent i 1 = 0 then (c.setEnt i 5 0x8000).setEnt i 6 0
    else if c.ent 0x6121 0 = 0 then c.setEnt i 5 0x8000
    else
      let v := (r.diode.getD d none)
      let c' := c.sensorState (16 + d) v.isNone
      match v with
      | none => (c'.setEnt i 5 0x8000).setEnt i 6 (if r.diodeShort.getD d false then 3 else 2)
      | some x =>
        (if c'.entBit 0x6007 0 (16 + d) then c'.setEnt i 5 0x8000 else c'.setS 16 i 5 (clampI (-32767) 32767 (x + c'.entS 16 i 3))).setEnt
          i 6 1)

/-- The hottest reading and its sensor (R342): the lowest number among equals. -/
def Core.hottest (c : Core) : Option (Int × Nat) :=
  let l := (List.range 20).filterMap (fun k =>
    if k < 16 || c.ent (0x6020 + (k - 16)) 2 = 1 then (c.sensor k).map (fun x => (x, k)) else none)
  l.foldl (fun best e => match best with | none => some e | some b => if b.1 < e.1 then some e else best) none

/-- One flag's counters on one reading (R343): new set run, clear run and flag. -/
def flagStep (x thr hys : Int) (set clear : Nat) (flag : Bool) : Nat × Nat × Bool :=
  if thr ≤ x then (min 4 (set + 1), 0, flag || 4 ≤ set + 1)
  else if x < thr - hys then (0, min 4 (clear + 1), flag && clear + 1 < 4)
  else (0, 0, flag)

/-- Updates the three flags; degraded sensing sets WARN and THROTTLE and holds them (R341, R343). -/
def Core.thermFlags (c : Core) : Core :=
  let degraded := ((List.range 16).filter (fun k => !c.entBit 0x6007 0 k)).length < 8
  let c0 := c.setEntBit 0x6001 0 3 degraded
  let hys := c0.entS 16 0x6010 4
  let stepped := match c0.hottest with
    | none => c0
    | some (x, _) =>
      c0.each [0, 1, 2] (fun c k =>
        let r := flagStep x (c.entS 16 0x6010 (k + 1)) hys (c.therm.setRun.getD k 0) (c.therm.clearRun.getD k 0)
          (c.entBit 0x6001 0 k)
        { (c.setEntBit 0x6001 0 k r.2.2) with
          therm := { c.therm with setRun := setAt c.therm.setRun k r.1, clearRun := setAt c.therm.clearRun k r.2.1 } })
  if degraded then (stepped.setEntBit 0x6001 0 0 true).setEntBit 0x6001 0 1 true else stepped

/-- A threshold or the hysteresis was written: the counts restart (R343). -/
def Core.restartFlag (c : Core) (ks : List Nat) : Core :=
  ks.foldl (fun c k => { c with therm := { c.therm with
    setRun := setAt c.therm.setRun k 0, clearRun := setAt c.therm.clearRun k 0 } }) c

/-- One move of the ladder to `step`, with the path it shed or restored (R345). -/
def Core.ladderMove (c : Core) (step : Nat) (path : Option Nat) : Core :=
  let c1 := ({ (c.setEnt 0x6004 0 step) with therm := { c.therm with moveFrom := c.now } }).emit 42 0x0E02
    (d8 step ++ d8 (path.getD 0xFF))
  if c1.isStandby && step ≠ 0 then c1.exitStep else c1

/-- The next move up (R344, R345). -/
def Core.ladderUp (c : Core) : Core :=
  match c.ent 0x6004 0 with
  | 0 => (c.ladderMove 1 none).throttleFreeze true
  | 1 => ((c.ladderMove 2 none).countPromise 7).suspend true
  | 4 => c
  | _ =>
    match c.nextShed with
    | some p => (c.shed p).ladderMove 3 (some p)
    | none => ((c.ladderMove 4 none).countPromise 6).recompute

/-- The next move down, in exact reverse (R345). -/
def Core.ladderDown (c : Core) : Core :=
  match c.ent 0x6004 0 with
  | 0 => c
  | 1 => (c.ladderMove 0 none).throttleFreeze false
  | 2 => (c.ladderMove 1 none).suspend false
  | 3 =>
    let r := c.restoreShed
    r.1.ladderMove (if r.1.therm.shed.isEmpty then 2 else 3) r.2
  | _ => (c.ladderMove (if c.therm.shed.isEmpty then 2 else 3) none).recompute

/-- The ladder to its top at once (R347). -/
def Core.ladderTop : Nat → Core → Core
  | 0, c => c
  | n + 1, c => if c.ent 0x6004 0 = 4 then c else c.ladderUp.ladderTop n

/-- The temperature compensation term (R350). -/
def Core.compensate (c : Core) : Core :=
  match c.sensor (c.ent 0x6030 1) with
  | none => if c.entBit 0x6001 0 5 then c else (c.setEntBit 0x6001 0 5 true).emit 42 0x0E05 []
  | some t =>
    let x := clampI 0 1039500 ((t + 4000) * 63)
    let i := min (x / 16500).toNat 62
    let a := c.entS 16 0x6031 (i + 1)
    let b := c.entS 16 0x6031 (i + 2)
    let v := a + (2 * (b - a) * (x - 16500 * i) + 16500) / 33000
    ((c.setEntBit 0x6001 0 5 false).setS 16 0x1230 7 v).setS 16 0x6030 2 v

/-- Units waiting for the NV engine. -/
def State.unitsPending (s : State) : Nat :=
  s.book.queue.length + s.book.restored.length + s.core.persist.length +
    (match s.nv.job with | some j => ceilDiv j.bytes.length 256 - j.page | none => 0) + (s.core.cal.map (fun e => e.2.1)).sum

/-- What follows from a cycle's flags: state, records, ladder, shut-down (R343, R345, R347, R348). -/
def Core.thermAct (c : Core) (old : Nat) (pending : Nat) : Core :=
  let warn := c.entBit 0x6001 0 0
  let throttle := c.entBit 0x6001 0 1
  let down := c.entBit 0x6001 0 2
  let new := if down then 3 else if throttle then 2 else if warn then 1 else 0
  let oldState := c.ent 0x6000 0
  let hot := c.hottest
  let c1 := match hot with
    | some (x, k) => (c.setS 16 0x6002 0 x).setEnt 0x6003 0 k
    | none => (c.setEnt 0x6002 0 0x8000).setEnt 0x6003 0 0xFF
  let c2 := if new = oldState then c1
    else ((c1.setEnt 0x6000 0 new).emit 42 0x0E01
      (d8 oldState ++ d8 new ++ d8 (c1.ent 0x6003 0) ++ d16 (c1.ent 0x6002 0))).irq 6
  let c3 := c2.each [0, 1, 2] (fun c k => if bit old k then c else if c.entBit 0x6001 0 k then c.count 0x6040 (k + 1) 1 else c)
  let below := match hot with | some (x, _) => decide (x < c3.entS 16 0x6010 2) | none => true
  let c4 :=
    if throttle && !bit old 1 then
      (if c3.ent 0x6004 0 = 0 then c3.ladderUp else { c3 with therm := { c3.therm with moveFrom := c3.now } })
    else if throttle && below then { c3 with therm := { c3.therm with moveFrom := c3.now } }
    else if !throttle && bit old 1 then { c3 with therm := { c3.therm with moveFrom := c3.now } }
    else c3
  if down && !bit old 2 then
    let c5 := (c4.setEntBit 0x6001 0 4 true).emit 42 0x0E04 (d32 pending)
    let held := c5.latched && (c5.presented.any Event.latching || c5.persist.any (fun u => u.any (fun e => e.1 = 0)))
    let c6 := (if held then c5.countPromise 2 else c5).ladderTop 40
    let c7 := c6.recompute.withdraw 3
    { c7 with powerDownBy := some (c7.now + 491520) }
  else if !down && bit old 2 then
    (((c4.setEntBit 0x6001 0 4 false).emit 42 0x0E04 (d32 pending)).recompute).restoreToken 3
  else c4

/-- The on-die sensor of a converter (R340): TS0 to TS3 for two RFINs each, TS4 to TS7 for two RFOUTs each. -/
def trimSensor (k : Nat) : Nat := k / 2

/-- Recomputes the trims of every powered converter whose sensor has a value (R351): one update moves a gain by at most
0.01 dB. The reading's tick is a sample boundary at every rate, and the trims apply from it. -/
def Core.recomputeTrims (c : Core) : Core :=
  (List.range 16).foldl (fun (c : Core) (k : Nat) =>
    match c.entBit (if k < 8 then 0x2803 else 0x2804) (k % 8 + 1) 0, c.sensor (trimSensor k) with
    | true, some x =>
      let was := c.therm.trim k
      let want := Config.converterTrim k x
      let new := (clampI (was.1 - 100) (was.1 + 100) want.1, want.2)
      { c with therm := { c.therm with trims := c.therm.trims.put (fun _ => (0, 0)) k new } }
    | _, _ => c) c

/-- A reading cycle completes (R340 to R351). -/
def Core.thermReading (c : Core) (r : SensorCycle) (pending : Nat) : Core :=
  let old := c.ent 0x6001 0
  let c1 := ((c.wrapAdd 32 0x6006 0 1).readSensors r).thermFlags
  (c1.thermAct old pending).compensate.recomputeTrims

def execThermalReading (r : SensorCycle) (s : State) : Out :=
  s.event (fun c => c.awake && c.clock % 491520 = 0) (fun c => c.thermReading r s.unitsPending)

/-- An advance interval has ended with every reading hot (R345). -/
def Core.ladderAdvances (c : Core) : Bool :=
  c.entBit 0x6001 0 1 && c.ent 0x6004 0 ≠ 4 && c.therm.moveFrom + c.ent 0x6010 5 * ms ≤ c.now

def Core.ladderRetreats (c : Core) : Bool :=
  !c.entBit 0x6001 0 1 && c.ent 0x6004 0 ≠ 0 && c.therm.moveFrom + c.ent 0x6010 6 * ms ≤ c.now

def execLadderAdvance (s : State) : Out := s.event Core.ladderAdvances Core.ladderUp
def execLadderRetreat (s : State) : Out := s.event Core.ladderRetreats Core.ladderDown

end Sys2Proof.Machine
end

