-- ==== Sys2Proof/Machine/Twin.lean ====
section
/-! DEFINITION. Twin operation (R242 to R270): roles, token and pre-emption, swaps, self-tests, and the comparison and copy
that keep a STANDBY in step. -/

namespace Sys2Proof.Machine

/-- Whether this chip is the PRIMARY. -/
def Core.isPrimary (c : Core) : Bool := c.entBit 0x5000 0 1
def Core.linkUp (c : Core) : Bool := c.entBit 0x5000 0 3
def Core.tokenSeen (c : Core) : Bool := c.entBit 0x5000 0 2

def Core.modTwin (c : Core) (f : TwinSt → TwinSt) : Core := { c with twin := f c.twin }

/-- Every path's fade at every RFOUT ends. -/
def Core.endFades (c : Core) : Core :=
  c.each (List.range 8) (fun c o => if (c.sink o).fades.isEmpty then c else c.setSink o { c.sink o with fades := [] })

/-- A chip becomes ACTIVE by asserting PREEMPT_O (R249). A chip whose own line is high is never forced. -/
def Core.claim (c : Core) (kind : Nat) : Core :=
  let c1 := c.modTwin (fun t => { t with
    preemptOut := true, preemptIn := false, assertedAt := c.now, windowUntil := none, claimAt := none, reclaimAt := none,
    yielded := false })
  (c1.setRole 1 kind).refreshForced

/-- A claim whose drivers and release stages follow at once. -/
def Core.claimNow (c : Core) (kind : Nat) : Core :=
  (c.claim kind).modTwin (fun t => { t with drivers := true, driversAt := none, openAt := c.now })

/-- A chip becomes STANDBY: it releases PREEMPT_O and its drivers (R243, R249). -/
def Core.standBy (c : Core) (kind : Nat) : Core :=
  let c1 := c.modTwin (fun t => { t with preemptOut := false, drivers := false, driversAt := none, claimAt := none })
  (c1.setRole 2 kind).refreshForced

/-- A chip without a role sees its partner (R246): the PRIMARY claims and the other becomes STANDBY. A chip whose partner is
ACTIVE already returns through JOINING (R251). -/
def Core.partnerFound (c : Core) (partnerActive : Bool) : Core :=
  let c0 := c.modTwin (fun t => { t with partnerSeen := true })
  if !c0.twinOn || c0.phase ≠ .ready || c0.ent 0x5001 0 ≠ 0 then c0
  else
    let c1 := if c0.isPrimary && !partnerActive && !c0.twin.preemptIn then c0.claimNow 5 else c0.standBy 5
    c1.setPair 3

/-- No partner 100 ms after DEPOT ready (R246). The non-PRIMARY chip claims 256 ticks later than the PRIMARY. -/
def Core.partnerOverdue (c : Core) : Bool :=
  c.twinOn && c.phase = .ready && c.ent 0x5001 0 = 0 && !c.twin.partnerSeen &&
    c.since + 49152000 + (if c.isPrimary then 0 else 256) ≤ c.now

def execTwinPartnerTimeout (s : State) : Out :=
  s.event Core.partnerOverdue (fun c =>
    if !c.isPrimary && c.twin.preemptIn then (c.standBy 5).setPair 3 else (c.claimNow 5).setPair 3)

/-- How far reintegration has come: the last step completed (R265). -/
def Core.lastStep (c : Core) : Nat := c.ent 0x5040 2 - 1

/-- The join ends without PROTECTED: copied configuration that step 2 has not confirmed is discarded (R266). -/
def Core.undoCopy (c : Core) : Core :=
  if c.twin.copied.isEmpty then c
  else
    let old := c.cfg
    let keys := (c.dict.filter (fun e => (rowOf (e.1 / 256) (e.1 % 256)).any (fun r => r.acc = .rw || r.acc = .rwd) && !twinLocalKey e.1)).map Prod.fst
    let bare := keys.foldl (fun (d : Tab Nat) k => d.drop k) c.dict
    let back := c.twin.copied.foldl (fun (d : Tab Nat) (e : Nat × Nat) => Tab.put entryDefault d e.1 e.2) bare
    ({ c with dict := back, twin := { c.twin with copied := [] } }).applyConfig old

/-- The take-over of a joiner whose partner fails (R266): before step 2 it serves from its own configuration; after, with a
reintegration backoff, its missing resets ordered and its slots by hand-over. -/
def Core.joinTakeOver (c : Core) : Core :=
  let step := c.ent 0x5040 2
  if step ≤ 2 then
    let c1 := c.undoCopy
    (c1.each allPaths (fun c p =>
      if c.entBit 0x110A 0 p then (c.hardMute p (c.muteReasons p)) else c)).refreshPaths
  else
    let c1 := ((c.count 0x5020 8 1).countPromise 6).emit 38 0x0A07 (d8 (step - 1))
    let c2 := if step ≤ 3 then c1.each allPaths (fun c p => c.orderReset p 6 c.clock) else c1
    let c3 := if step ≤ 5 then c2.each (List.range 64) (fun c s =>
        if c.cfg.slotOn s then c.setSlot s { c.slot s with hand := 3 } else c) else c2
    ((c3.setCdb 0x5041 0 (some (-1000))).setFrameState 3).recompute

/-- The partner's token is lost (R247): the STANDBY takes over (R250), the ACTIVE chip is EXPOSED, a crossfade is aborted
(R255). -/
def Core.tokenLost (c : Core) : Core :=
  let c1 := (((c.setEntBit 0x5000 0 2 false).count 0x5020 3 1).emit 38 0x0A03 (d32 (c.clock + 2 ^ 64 - 26))).modTwin
    (fun t => { t with tokenMissing := some c.now })
  let joining := c.ent 0x5002 0 = 1
  let fading := c.entBit 0x5000 0 5
  let c2 := if fading then
      ((c1.setEntBit 0x5000 0 5 false).setEnt 0x5004 0 4).endFades.emit 38 0x0A04 (d32 (c.ent 0x5005 0) ++ d8 4) else c1
  let c3 := c2.modTwin (fun t => { t with swapTick := none, swapPhase := 0 })
  let claims := (c.isStandby || (fading && c.isActive && !c.twin.preemptOut)) && !(c.twin.yielded && c.linkUp)
  let c4 := if joining && c.isStandby then c3.joinTakeOver else c3
  if claims then
    ((if c.isStandby then c4.count 0x5020 1 1 else c4).exitStep).modTwin (fun t => { t with
      claimAt := some (c.now + 1), driversAt := some (c.now + 12), openAt := c.now + 17 })
  else c4.exitStep

def execTokenLost (s : State) : Out :=
  s.event (fun c => c.twinOn && c.phase = .ready && c.tokenSeen) Core.tokenLost

/-- Eight correct edges return the partner's token (R247). -/
def execTokenReturn (s : State) : Out :=
  s.event (fun c => c.twinOn && c.phase = .ready && !c.tokenSeen) (fun c =>
    (((c.setEntBit 0x5000 0 2 true).setEntBit 0x5000 0 8 false).modTwin (fun t => { t with tokenMissing := none })).partnerFound
      c.twin.preemptIn)

/-- One second of link frames with the token still missing (R252). -/
def execTokenWireFault (s : State) : Out :=
  s.event (fun c => c.twinOn && c.linkUp && !c.tokenSeen && !c.entBit 0x5000 0 8 &&
      (match c.twin.tokenMissing with | some t => decide (t + second ≤ c.now) | none => false))
    (fun c => (c.setEntBit 0x5000 0 8 true).emit 38 0x0A09 [])

/-- The data of a swap's records: T_s and the result as 0x5004 codes it. -/
def Core.swapRecord (c : Core) (result : Nat) : Core := c.emit 38 0x0A04 (d32 (c.ent 0x5005 0) ++ d8 result)

/-- A swap has completed on this chip (R254): record 0x0A04, the counter, and, for a proving swap, its dwell on the new ACTIVE
or its end (R269). `new` is this chip's role. -/
def Core.swapDone (c : Core) (new : Nat) : Core :=
  let kind := c.twin.swapKind
  let c1 := (((c.setEntBit 0x5000 0 5 false).setEnt 0x5004 0 0).count 0x5020 2 1).endFades.swapRecord 0
  let dwell := c.ent 0x7010 2 * second
  let c2 := c1.modTwin (fun t => { t with
    swapTick := none, swapPhase := 0, swapKind := 0, windowUntil := none
    protectedSince := if c.ent 0x5002 0 = 2 then some (c.now + if kind = 4 then dwell else 0) else none
    dwellEnd := if kind = 4 && new = 1 then some (c.now + dwell) else none
    differences := if kind = 4 then 0 else t.differences
    maxDifference := if kind = 4 then 0 else t.maxDifference })
  if kind = 0x34 then (c2.setEntBit 0x5000 0 9 true).exitStep else c2

/-- A swap is aborted on this chip (R255). -/
def Core.swapAborted (c : Core) : Core :=
  (((c.setEntBit 0x5000 0 5 false).setEnt 0x5004 0 4).endFades.swapRecord 4).modTwin
    (fun t => { t with swapTick := none, swapPhase := 0, swapKind := 0, windowUntil := none })

/-- PREEMPT_I rises (R249): the chip is forced, or it yields. The outgoing chip of a swap becomes STANDBY (R254). -/
def Core.preemptRise (c : Core) : Core :=
  let c1 := c.modTwin (fun t => { t with preemptIn := true, windowUntil := none, claimAt := none })
  if c.ent 0x5001 0 = 0 then (c1.standBy 5).setPair 3
  else if c.twin.preemptOut then
    let early := c.now ≤ c.twin.assertedAt + 64
    let equal := c.entBit 0x5000 0 7
    if !early then ((c1.standBy 6).modTwin (fun t => { t with yielded := true })).exitStep
    else if equal then
      ((c1.standBy 6).modTwin (fun t => { t with
        yielded := true, reclaimAt := some (c.now + 256 + 4 * ((serialNo.getD 0 0).toNat)) })).exitStep
    else if c.isPrimary then c1.refreshForced
    else ((c1.standBy 6).modTwin (fun t => { t with yielded := true })).exitStep
  else if c.isActive && 2 ≤ c.twin.swapPhase then ((c1.standBy (c.twin.swapKind % 16)).swapDone 2).refreshForced
  else if 2 ≤ c.twin.swapPhase then (c1.swapAborted.modTwin (fun t => { t with drivers := false, driversAt := none })).refreshForced
  else c1.refreshForced

def execPreemptRise (s : State) : Out :=
  s.event (fun c => c.twinOn && c.phase = .ready && !c.twin.preemptIn) Core.preemptRise

/-- The window of R249 is over: the chip releases only zero. -/
def execPreemptWindowEnd (s : State) : Out :=
  s.event (fun c => c.reached c.twin.windowUntil) (fun c => c.modTwin (fun t => { t with windowUntil := none }))

/-- After yielding on equal straps a chip claims again (R249). -/
def execStrapConflictReclaim (s : State) : Out :=
  s.event (fun c => c.reached c.twin.reclaimAt && !c.isActive) (fun c =>
    let c1 := c.modTwin (fun t => { t with reclaimAt := none })
    if c.twin.preemptIn then c1 else c1.claimNow 6)

/-- Whether a swap, a crossfade or a proving dwell is in progress. -/
def Core.swapBusy (c : Core) : Bool := c.twin.swapPhase ≠ 0 || c.twin.dwellEnd.isSome

/-- The ACTIVE chip chooses T_s and sends it (R254). -/
def Core.beginSwap (c : Core) (kind : Nat) : Core :=
  let t := ceilMul 1024 (c.clock + 4096) % 2 ^ 64
  let c1 := ((c.setEnt 0x5004 0 1).setEnt 0x5005 0 t).modTwin
    (fun w => { w with swapTick := some t, swapKind := kind, swapOut := true, swapPhase := 1 })
  c1.twinSend 0x0B (d8 1 ++ d8 kind ++ leBytes 8 t)

def swapAct (v : Nat) : Act := coreAct (fun c =>
  if v ≠ 1 then (0x0301, c)
  else if c.ent 0x5002 0 ≠ 2 then (0x0204, c.setEnt 0x5004 0 2)
  else if c.swapBusy then (0x0205, c.setEnt 0x5004 0 3)
  else (0, c.beginSwap 2))

def execSwapCommand (o : Origin) (v : Byte) (s : State) : Out :=
  .next (s.serveWrite o 0x5004 0 (d8 v.toNat) (swapAct v.toNat))

/-- T_s (R254): the ACTIVE lowers PREEMPT_O, the window opens, and the fades are set. -/
def Core.swapStart (c : Core) : Core :=
  let ts := c.twin.swapTick.getD c.clock
  if c.ent 0x5002 0 ≠ 2 then c.swapAborted
  else
    let out := c.twin.swapOut
    let c1 := (c.setEntBit 0x5000 0 5 true).modTwin (fun t => { t with
      preemptOut := if out then false else t.preemptOut, preemptIn := if out then t.preemptIn else false,
      windowUntil := some (c.now + 1280), swapPhase := 2 })
    ((c1.each (allPaths.filter (c.entBit 0x110A 0)) (fun c p =>
      c.each (c.cfg.rfouts p) (fun c o => c.setFade p o (some ⟨!out, ts + 16, 0⟩)))).refreshForced).swapRecord 1

def Core.swapReached (c : Core) (phase d : Nat) : Bool :=
  c.twin.swapPhase = phase && (match c.twin.swapTick with | some t => decide (t + d ≤ c.clock) | none => false)

def execSwapStart (s : State) : Out := s.event (fun c => c.swapReached 1 0) Core.swapStart

/-- Whether a switching-class output has an edge due within 2 ticks (R254). -/
def Core.edgeSoon (c : Core) : Bool :=
  [0, 1, 2].any (fun d =>
    let x := { c with clock := c.clock + d }
    (List.range 32).any (fun n => x.wantFec n != c.fecOn n) || [0, 1, 2, 3].any (fun t => x.wantTrsw t != c.trswOn t))

/-- The drivers pass from the outgoing to the incoming chip, which enables them one tick later (R254). -/
def execSwapDriverHandover (s : State) : Out :=
  s.event (fun c => c.swapReached 2 1088 && !c.edgeSoon) (fun c =>
    if c.twin.swapOut then c.modTwin (fun t => { t with drivers := false, swapPhase := 3 })
    else c.modTwin (fun t => { t with driversAt := some (c.now + 1), swapPhase := 3 }))

/-- The incoming chip asserts PREEMPT_O and is ACTIVE (R254). -/
def execSwapClaim (s : State) : Out :=
  s.event (fun c => c.swapReached 3 1152 && !c.twin.swapOut) (fun c =>
    ((c.claim (c.twin.swapKind % 16)).modTwin (fun t => { t with openAt := c.now })).swapDone 1)

/-- The incoming chip has not claimed (R255): the outgoing one asserts its own line again, at full weight. -/
def execSwapAbort (s : State) : Out :=
  s.event (fun c => (c.swapReached 2 1280 || c.swapReached 3 1280) && c.twin.swapOut && !c.twin.preemptIn) (fun c =>
    (c.swapAborted.modTwin (fun t => { t with
      preemptOut := true, assertedAt := c.now, drivers := true, driversAt := none })).refreshForced)

/-- Whether the rejoin conditions hold: EXPOSED, link up, the partner's token alive, and the partner not held out. -/
def Core.mayJoin (c : Core) : Bool :=
  c.ent 0x5002 0 = 3 && c.linkUp && c.tokenSeen && c.twin.token && !c.twin.heldOut && c.ent 0x5001 0 ≠ 0

/-- The bytes of an entry's value at its type's width. -/
def entryBytes (key v : Nat) : List Byte := leBytes ((rowOf (key / 256) (key % 256)).map (fun r => r.ty.width) |>.getD 8) v

/-- An entry in a copy block: key and value. -/
def entryBlock (form key v : Nat) : List Byte := d8 form ++ d32 key ++ entryBytes key v

/-- Whether reintegration copies an entry in step 1: RW and RWD, not twin-local (R265). -/
def copies (key : Nat) : Bool :=
  (rowOf (key / 256) (key % 256)).any (fun r => (r.acc = .rw || r.acc = .rwd) && !r.marks.contains .twinLocal)

/-- The Guard, mode and front-end entries that step 2 copies. -/
def stepTwoKeys : List Nat :=
  [entKey 0x3102 0, entKey 0x3101 0, entKey 0x3103 3, entKey 0x3104 2, entKey 0x3104 3, entKey 0x3104 4, entKey 0x3100 0] ++
  [0, 1].map (fun k => entKey (0x3250 + k) 9) ++
  allPaths.flatMap (fun p => [entKey (pIdx p 0x20) 4, entKey (pIdx p 0x21) 6, entKey (pIdx p 0x22) 4, entKey (pIdx p 0x23) 3,
    entKey (pIdx p 0x23) 5, entKey (pIdx p 0x24) 1, entKey (pIdx p 0x24) 2, entKey (pIdx p 2) 4])
/-- The canceller entries that step 4 copies beside the taps. -/
def stepFourKeys : List Nat :=
  allPaths.flatMap (fun p => [entKey (pIdx p 0x1A) 1, entKey (pIdx p 0x1A) 2, entKey (pIdx p 2) 3, entKey (pIdx p 0x1B) 4,
    entKey (pIdx p 0x1B) 5])

/-- The copy blocks of a step at the ACTIVE chip (R265), in the layout this model gives them. -/
def Core.stepBlocks (c : Core) (step : Nat) : List (List Byte) :=
  let dictBlock := fun (key : Nat) => entryBlock 0 key (c.dict.get entryDefault key)
  match step with
  | 1 => ((c.dict.filter (fun e => copies e.1)).map (fun e => entryBlock 0 e.1 e.2)) ++
      c.pend.map (fun e => d8 1 ++ d32 (c.ent 0x1104 4) ++ d32 e.1 ++ entryBytes e.1 e.2) ++
      (match c.sched with
        | some m => m.writes.map (fun e => d8 2 ++ d32 m.owner ++ d16 (c.ent 0x1104 7) ++ leBytes 8 m.tick ++ d32 e.1 ++ entryBytes e.1 e.2)
        | none => [])
  | 2 => stepTwoKeys.map dictBlock ++
      [0, 1].filterMap (fun k => match (c.points k).pending, (c.points k).changeAt with
        | some br, some t => some (d8 10 ++ d8 k ++ d8 br ++ leBytes 8 t)
        | _, _ => none) ++
      [d8 3 ++ dS64 c.fe.frame16 ++ d8 (c.ent 0x3202 0),
       d8 4 ++ d8 c.base ++ d8 c.mode ++ d8 (if c.latched then 1 else 0) ++ d16 c.guard.latchCause ++
         d8 (if c.guard.netStand then 1 else 0) ++ d16 c.time.reftune ++ leBytes 8 ((c.guard.retryAt.map (· - c.now)).getD (2 ^ 64 - 1))] ++
      allPaths.flatMap (fun p =>
        let g := (c.path p).guard
        g.decisions.map (fun t => d8 5 ++ d8 p ++ d8 0 ++ leBytes 8 (c.now - t)) ++
        g.floorMutes.map (fun t => d8 5 ++ d8 p ++ d8 1 ++ leBytes 8 (c.now - t)) ++
        (g.oscLift.toList.map (fun t => d8 5 ++ d8 p ++ d8 2 ++ leBytes 8 (t - c.now))) ++
        (g.oobLift.toList.map (fun t => d8 5 ++ d8 p ++ d8 3 ++ leBytes 8 (t - c.now))) ++
        (if g.reflBackoff || g.reflMute || g.overload then
          [d8 6 ++ d8 p ++ d8 (flagMask [(0, g.reflBackoff), (1, g.reflMute), (2, g.overload)])] else []))
  | 4 => stepFourKeys.map dictBlock ++ allPaths.flatMap (fun p =>
      let taps := (c.path p).canc.taps
      (List.range (ceilDiv taps.length 28)).map (fun k =>
        d8 7 ++ d8 p ++ d16 k ++ ((taps.drop (28 * k)).take 28).flatMap (fun t => dS32 t.1 ++ dS32 t.2)))
  | 5 => ((List.range 96).filter (fun s => c.ent (sIdx s 4) 1 ≠ 0)).map (fun s =>
        d8 8 ++ d8 s ++ dS32 (c.entS 32 (sIdx s 4) 2) ++ stateBytes (c.slotState s)) ++
      [0, 1].map (fun a => d8 9 ++ d8 a ++ d32 (c.ent (0x4801 + a * 16) 1) ++ dS32 (c.axis a).command)
  | _ => []

/-- The ACTIVE chip sends a step's blocks and their count (R265). -/
def Core.sendStep (c : Core) (step : Nat) : Core :=
  let bs := c.stepBlocks step
  let c1 := c.modTwin (fun t => { t with blocks := bs.zipIdx.map (fun e => (e.2, e.1)), copyEnd := some bs.length })
  let c2 := (c1.setEnt 0x5040 2 step)
  ((bs.zipIdx).foldl (fun c e => c.twinSend 0x0C (d8 step ++ d16 e.2 ++ e.1)) c2).twinSend 0x0C
    (d8 step ++ d16 bs.length ++ d8 0xFF)

/-- A join begins (R265). -/
def Core.joinStart (c : Core) : Core :=
  let c1 := ((c.setPair 1).setEnt 0x5040 2 1).setEnt 0x5040 1 1
  let c2 := c1.modTwin (fun t => { t with blocks := [], copyEnd := none, copied := [] })
  if c2.isActive then c2.sendStep 1 else c2

def execJoinStart (s : State) : Out :=
  s.event (fun c => c.mayJoin && (match c.twin.conditionsSince with | some t => decide (t + 10 * second ≤ c.now) | none => false))
    Core.joinStart

/-- A write to 0x5040.01 (R248, R264): 1 clears any hold and joins at once, 2 withdraws the chip's token. -/
def joinAct (v : Nat) : Act := coreAct (fun c =>
  if v = 2 then (if c.twinOn then (0, (c.withdraw 6).setEnt 0x5040 1 0) else (0x0204, c.setEnt 0x5040 1 2))
  else if v ≠ 1 then (0x0301, c)
  else if c.ent 0x5002 0 = 1 then (0x0205, c)
  else
    let c1 := (c.restoreToken 6).modTwin (fun t => { t with heldOut := false, failures := [] })
    if c1.mayJoin then (0, c1.joinStart) else (0x0204, c1.setEnt 0x5040 1 2))

def execJoinCommand (o : Origin) (s : State) : Out := .next (s.serveWrite o 0x5040 1 (d8 1) (joinAct 1))
def execTwinWithdraw (o : Origin) (s : State) : Out := .next (s.serveWrite o 0x5040 1 (d8 2) (joinAct 2))

/-- A slot's state from its 39 bytes. -/
def stateOf (b : List Byte) : List Int :=
  (List.range 4).map (fun k => sInt 64 (field b (8 * k) 8)) ++ [sInt 32 (field b 32 4)] ++
    [36, 37, 38].map (fun k => (field b k 1 : Int))

/-- One copied entry or structure takes its place at the joiner (R265). -/
def Core.takeBlock (c : Core) (b : List Byte) : Core :=
  let put := fun (c : Core) => { c with dict := Tab.put entryDefault c.dict (field b 1 4) (ofLe (b.drop 5)) }
  match field b 0 1 with
  | 0 => put c
  | 1 => { ((c.setEnt 0x1104 4 (field b 1 4)).setEnt 0x1104 3 ((Tab.insert c.pend (field b 5 4) 0).length)) with
      pend := Tab.insert c.pend (field b 5 4) (ofLe (b.drop 9)) }
  | 2 =>
    let w := match c.sched with | some m => m.writes | none => []
    { ((c.setEnt 0x1104 5 (field b 7 8)).setEnt 0x1104 7 (field b 5 2)) with
      sched := some ⟨Tab.insert w (field b 15 4) (ofLe (b.drop 19)), field b 7 8, field b 1 4⟩ }
  | 3 => ({ c with fe := { c.fe with frame16 := sInt 64 (field b 1 8), slew16 := 0, jump := none } }).setFrameState (field b 9 1)
  | 4 =>
    let retry := field b 9 8
    let c1 := { (c.setEnt 0x1101 0 (field b 1 1)) with
      guard := { c.guard with
        netStand := field b 6 1 = 1, retryAt := if retry = 2 ^ 64 - 1 then none else some (c.now + retry) }
      time := { c.time with reftune := field b 7 2 } }
    if field b 3 1 = 1 then c1.latch (field b 4 2) else c1
  | 5 =>
    let t := field b 3 8
    c.modGuardPath (field b 1 1) (fun g => match field b 2 1 with
      | 0 => { g with decisions := g.decisions ++ [c.now - t] }
      | 1 => { g with floorMutes := g.floorMutes ++ [c.now - t] }
      | 2 => { g with oscLift := some (c.now + t) }
      | _ => { g with oobLift := some (c.now + t) })
  | 6 => c.modGuardPath (field b 1 1) (fun g => { g with
      reflBackoff := bit (field b 2 1) 0, reflMute := bit (field b 2 1) 1, overload := bit (field b 2 1) 2 })
  | 7 => c.modCanc (field b 1 1) (fun k =>
      let new := (List.range ((b.length - 4) / 8)).map (fun j => (sInt 32 (field b (4 + 8 * j) 4), sInt 32 (field b (8 + 8 * j) 4)))
      let taps := k.taps.take (28 * field b 2 2) ++ new
      { k with taps := taps, peak := peakTap taps, liveHeld := true })
  | 8 =>
    let s := field b 1 1
    let v := sInt 32 (field b 2 4)
    let st := stateOf (b.drop 6)
    let c1 := (c.setS 32 (sIdx s 4) 2 v).setSlotState s st
    if 64 ≤ s then c1.writeCeiling (s - 64) (if v = 0x8000 then none else some (st.getD 0 0))
      (if v = 0x8000 then none else some (st.getD 1 0)) else c1
  | 9 =>
    let a := field b 1 1
    (c.setEnt (0x4801 + a * 16) 1 (field b 2 4)).setAxis a { c.axis a with command := sInt 32 (field b 6 4) }
  | 10 => c.pointsFollow (field b 1 1 % 2) (field b 2 1 % 2) (field b 3 8)
  | _ => c

/-- What a completed step changes at the joiner (R265). -/
def Core.finishStep (c : Core) (step : Nat) : Core :=
  let bodies := c.twin.blocks.map Prod.snd
  match step with
  | 1 =>
    let old := c.cfg
    let mine := c.dict.filter (fun e => copies e.1)
    let bare := mine.foldl (fun (d : Tab Nat) (e : Nat × Nat) => d.drop e.1) c.dict
    let c1 := { c with
      dict := bare, pend := [], sched := none
      twin := { c.twin with copied := Tab.insert mine (entKey 0x1101 0) (c.ent 0x1101 0) } }
    ((bodies.foldl Core.takeBlock c1).applyConfig old).alignPoints
  | 2 =>
    let c1 := bodies.foldl Core.takeBlock { c with twin := { c.twin with copied := [] } }
    let c2 := (c1.alignPoints.each allPaths Core.guardRefresh).recompute
    let t := ceilMul 128 (c2.clock + 1024) % 2 ^ 64
    c2.each allPaths (fun c p => c.orderReset p 6 t)
  | 4 => (bodies.foldl Core.takeBlock c).each allPaths Core.refreshGain
  | 5 => bodies.foldl Core.takeBlock c
  | _ => c

/-- Whether the copy step at hand is complete at the joiner. -/
def Core.stepReady (c : Core) : Bool :=
  c.ent 0x5002 0 = 1 && c.isStandby && (match c.ent 0x5040 2 with
    | 3 => allPaths.all (fun p => !((c.path p).resets.any (fun r => r.2 = 6 && c.clock < r.1)))
    | 5 => c.twin.copyEnd = some c.twin.blocks.length && c.clock % c.tc = 0
    | 1 | 2 | 4 => c.twin.copyEnd = some c.twin.blocks.length
    | _ => false)

/-- A copy step completes and the next begins; the joiner acknowledges it (R258, R265). -/
def execReintegrationStepDone (s : State) : Out :=
  s.event Core.stepReady (fun c =>
    let k := c.ent 0x5040 2
    (((c.finishStep k).setEnt 0x5040 2 (k + 1)).modTwin (fun t => { t with
      blocks := [], copyEnd := none, matches_ := if k = 5 then [] else t.matches_ })).twinSend 0x0D (d8 k))

/-- The items whose comparison interval is at most 1 ms, by item and index (R263, R265). -/
def Core.verified (c : Core) : Bool :=
  let g := c.cfg
  let live := allPaths.filter (c.entBit 0x110A 0)
  let slots := ((List.range 64).filter (fun s => g.slotOn s && g (sIdx s 0) 3 * c.tc ≤ 491520 &&
      ((g.levelPath s).isSome || g 0x5031 (s + 1) ≠ 0))).map (fun s => (if (g.levelPath s).isSome then 5 else 6) * 256 + s)
  let items := [256] ++ (if c.ttRunning && g.framePeriod ≤ 491520 then [512] else []) ++ live.map (3 * 256 + ·) ++
    (live.filter (fun p => g.blocks p ≠ 0 && c.corrLen p ≤ 491520)).map (4 * 256 + ·) ++ slots
  items.all (fun k => c.ent 0x5030 5 ≤ c.twin.matches_.get (fun _ => 0) k)

/-- Verification is met: PROTECTED, record 0x0A06. -/
def Core.joinDone (c : Core) : Core :=
  let d := (c.now - c.twin.joinFrom.getD c.now) % 2 ^ 32
  let c1 := ((((c.setPair 2).setEnt 0x5040 1 0).setEnt 0x5040 2 7).setEnt 0x5040 3 d).count 0x5020 4 1
  (c1.setEntBit 0x5000 0 9 false).emit 38 0x0A06 (d8 6 ++ d32 d)

def execReintegrationComplete (s : State) : Out :=
  s.event (fun c => c.ent 0x5002 0 = 1 && c.isStandby && c.ent 0x5040 2 = 6 && c.verified) Core.joinDone

/-- The time by which a step completes, from the start of JOINING (R265). -/
def stepLimit (step : Nat) : Nat :=
  match step with | 1 => 294912 | 2 => 491520 | 3 => 589824 | 4 => 983040 | 5 => 1228800 | _ => 9830400

/-- A join is abandoned (R265). -/
def Core.joinAbandon (c : Core) : Core :=
  let d := (c.now - c.twin.joinFrom.getD c.now) % 2 ^ 32
  let last := c.lastStep
  let c1 := (((c.setPair 3).setEnt 0x5040 1 3).setEnt 0x5040 3 d).count 0x5020 5 1
  (c1.emit 38 0x0A06 (d8 last ++ d32 d)).noteFailure

def execReintegrationAbandon (s : State) : Out :=
  s.event (fun c => c.ent 0x5002 0 = 1 &&
      (match c.twin.joinFrom with | some t => decide (t + stepLimit (c.ent 0x5040 2) < c.now) | none => false)) Core.joinAbandon

/-- The reintegration backoff eases by 1 dB (R267). -/
def execReintegrationBackoffEase (s : State) : Out :=
  s.event (fun c => c.reached c.twin.easeAt && c.cdb 0x5041 0 < 0) (fun c =>
    let b := min 0 (c.cdb 0x5041 0 + 100)
    ((c.setCdb 0x5041 0 (some b)).modTwin (fun t => { t with easeAt := if b < 0 then some (c.now + second) else none })).recompute)

/-- The hold-off has passed for a PRIMARY that is STANDBY (R268): it asks for a swap back to itself. -/
def execTakeBack (s : State) : Out :=
  s.event (fun c => c.isStandby && c.isPrimary && c.ent 0x5002 0 = 2 && c.ent 0x5010 1 = 1 && !c.swapBusy &&
      (match c.twin.protectedSince with | some t => decide (t + c.ent 0x5010 2 * second ≤ c.now) | none => false))
    (fun c => (c.modTwin (fun t => { t with protectedSince := some c.now })).twinSend 0x0B (d8 2 ++ d8 3))

/-- Whether a proving swap may run now (R269). -/
def Core.mayProve (c : Core) : Bool := c.isActive && c.ent 0x5002 0 = 2 && (c.mode = mRun || c.mode = mCaution) && !c.swapBusy

/-- The tick on which the next proving swap falls due; 0 where the interval is 0. -/
def Core.provingDue (c : Core) : Nat :=
  if c.ent 0x7010 1 = 0 then 0 else (c.ent 0x7010 4 + c.ent 0x7010 1 * 3600 * second) % 2 ^ 64

/-- A proving swap falls due: it starts, or is deferred (R269). -/
def execProvingSwapDue (s : State) : Out :=
  s.event (fun c => c.phase = .ready && c.twinOn && !c.swapBusy && c.ent 0x7010 1 ≠ 0 && c.provingDue ≤ c.clock) (fun c =>
    if c.mayProve then c.beginSwap 4 else c.setEnt 0x7010 6 3)

def proveAct (v : Nat) : Act := coreAct (fun c =>
  if v ≠ 1 then (0x0301, c)
  else if c.ent 0x5002 0 ≠ 2 then (0x0204, c.setEnt 0x7010 7 2)
  else if c.swapBusy then (0x0205, c.setEnt 0x7010 7 3)
  else if !c.mayProve then (0x0203, c.setEnt 0x7010 7 2)
  else (0, (c.setEnt 0x7010 7 0).beginSwap 4))

def execProveNow (o : Origin) (v : Byte) (s : State) : Out :=
  .next (s.serveWrite o 0x7010 7 (d8 v.toNat) (proveAct v.toNat))

/-- Whether a receiver or a forward detector watches an RFOUT with live paths (R269). -/
def Core.watched (c : Core) : Bool :=
  (List.range 8).any (fun o => (c.cfg.boundTo o).any (c.entBit 0x110A 0) &&
    ([0, 1].any (fun k => c.receiverOn k && c.ent (0x3110 + k) 2 = o) || c.ent (0x3140 + o) 1 = 1))

/-- The end of the dwell (R269): the result, its record and time, and the swap back. -/
def Core.provingEnd (c : Core) : Core :=
  let failed := 10 ≤ c.twin.differences
  let r := if failed then 2 else if c.watched then 1 else 4
  let c1 := ((c.setEnt 0x7010 6 r).setPersistent 0x7010 4 c.clock).emit 38 0x0A0A
    (d8 r ++ dS16 (clampI (-32767) 32767 c.twin.maxDifference))
  let c2 := c1.modTwin (fun t => { t with dwellEnd := none })
  if c2.ent 0x5002 0 = 2 then c2.beginSwap (if failed then 0x34 else 0x24) else c2

def execProvingDwellEnd (s : State) : Out := s.event (fun c => c.reached c.twin.dwellEnd) Core.provingEnd

/-- The tenth difference in a row ends the dwell at once (R269). -/
def Core.provingFails (c : Core) : Core :=
  if c.twin.dwellEnd.isSome && 10 ≤ c.twin.differences then c.provingEnd else c

/-- A check of observation receiver k (R167 to R169), every 1.000 ms. -/
def execOobCheck (k : Fin 2) (m : List OobMeasurement) (s : State) : Out :=
  s.event (fun c => c.phase = .ready && c.clock % 491520 = 0 && c.receiverOn k) (fun c => (c.oobCheck k m).provingFails)

/-- Record 0x0A0C: a self-test's result (R270). -/
def Core.testResult (c : Core) (test result : Nat) : Core :=
  (c.setEnt 0x7000 2 result).emit 38 0x0A0C (d8 test ++ d8 result)

/-- A write to 0x7000.01 (R270). -/
def selfTestAct (v : Nat) : Act := coreAct (fun c =>
  let bench := c.mode = mDepot || c.mode = mShunt
  let serving := c.mode = mRun || c.mode = mCaution
  let start := fun (c : Core) => (0, ({ c with twin := { c.twin with selfTest := some v, selfTestAt := c.now } }).setEnt 0x7000 2 1)
  let n := c.ent 0x7000 3
  let fed := allPaths.filter (fun p => c.cfg.configured p && (c.cfg.rfinsOf (c.cfg.source p)).contains n)
  let guards := c.ttRunning && c.cfg.intervals.any (fun t => t.1 = 2 && 1024 + t.2.1 ≤ t.2.2)
  if v ≠ 1 && v ≠ 2 then (0x0301, c)
  else if c.twin.selfTest.isSome then (0x0205, c)
  else if v = 2 then
    (if !c.twinOn then (0x0204, c.testResult 2 4) else if bench || serving then start c else (0x0203, c.testResult 2 4))
  else if bench then start c
  else if !serving then (0x0203, c.testResult 1 4)
  else if c.ent 0x5002 0 = 2 then
    (if c.isStandby then start c.exitStep
     else (0, (c.twinSend 0x0B (d8 4 ++ d8 n)).testResult 1 3))
  else if !fed.isEmpty && fed.all c.cfg.isTdd && guards then
    (0, ({ c with twin := { c.twin with selfTest := some 3, selfTestAt := c.now } }).setEnt 0x7000 2 1)
  else (0x0203, c.testResult 1 4))

def execSelfTestReceive (o : Origin) (s : State) : Out := .next (s.serveWrite o 0x7000 1 (d8 1) (selfTestAct 1))
def execSelfTestLink (o : Origin) (s : State) : Out := .next (s.serveWrite o 0x7000 1 (d8 2) (selfTestAct 2))

/-- A self-test finishes (R270): the receive chain's when the RFIN has delivered nothing for 2.0 ms. -/
def execSelfTestDone (passed : Bool) (s : State) : Out :=
  s.event (fun c => match c.twin.selfTest with
      | some 2 => true | some _ => decide (c.twin.selfTestAt + 2 * ms ≤ c.now) | none => false) (fun c =>
    ({ c with twin := { c.twin with selfTest := none } }).testResult (if c.twin.selfTest = some 2 then 2 else 1)
      (if passed then 0 else 2))

/-- The values an ACTIVE chip sends for comparison (R258, R263): each path's last Express input level and I_raw, once per
window number. -/
def Core.sendValues (c : Core) : Core :=
  let one := fun (item index sub numSub : Nat) (c : Core) (p : Nat) =>
    let v := c.pe p index sub
    let n := c.pe p index numSub
    let key := item * 256 + p
    if v = noCdb || c.twin.sentNumbers.get (fun _ => 2 ^ 32) key = n then c
    else (c.twinSend 0x09 (d8 item ++ d8 p ++ d32 n ++ d16 v)).modTwin (fun t => { t with
      sentNumbers := t.sentNumbers.put (fun _ => 2 ^ 32) key n })
  (c.each (allPaths.filter (c.entBit 0x110A 0)) (one 3 0x11 1 2)).each
    (allPaths.filter (fun p => c.cfg.blocks p ≠ 0 && bit (c.pe p 0x1A 10) 0)) (one 4 0x1A 1 9)

/-- The records that go into this frame (R257, R259): the oldest that fit, each sent in two frames but copy blocks and
acknowledgements. -/
def packRecords : Nat → List TwinRec → List TwinRec × List TwinRec
  | _, [] => ([], [])
  | room, r :: l =>
    if room < 4 + r.data.length then ([], r :: l) else let q := packRecords (room - 4 - r.data.length) l; (r :: q.1, q.2)

def TwinRec.bytes (r : TwinRec) : List Byte := d8 r.kind ++ d8 r.data.length ++ d16 r.seq ++ r.data

/-- A twin frame (R257). -/
def Core.twinFrame (c : Core) (records : List TwinRec) : List Byte :=
  let body := records.flatMap TwinRec.bytes
  let flags := c.ent 0x5001 0 % 4 + (if c.ent 0x5002 0 = 2 then 4 else 0) + (if c.ent 0x5002 0 = 1 then 8 else 0)
  let b := d16 0x2B6E ++ d8 flags ++ d8 0 ++ d32 (c.ent 0x5003 0) ++ leBytes 8 c.clock ++ d16 c.twin.frameSeq ++
    d16 body.length ++ padTo 740 body
  b ++ d32 (crc32 b) ++ d32 0

/-- Every 128 ticks a frame leaves (R256). -/
def Core.sendTwinFrame (c : Core) : Core :=
  let c0 := if c.paired && c.isActive then
      (c.twinSend 0x08 (d8 c.base ++ d8 c.mode ++ d32 (c.ent 0x1102 0) ++ d16 c.time.reftune ++ d8 (c.ent 0x3260 4) ++
        d8 (c.ent 0x3261 4))).sendValues else c.sendHealth
  let q := packRecords 740 c0.twin.outbox
  let again := (q.1.filter (fun r => r.kind ≠ 0x0C && r.kind ≠ 0x0D && r.sent = 0)).map (fun r => { r with sent := 1 })
  c0.modTwin (fun t => { t with
    outbox := again ++ q.2, frameSeq := (t.frameSeq + 1) % 2 ^ 16, sentFrame := c0.twinFrame q.1 })

def execTwinFrameSend (s : State) : Out :=
  s.event (fun c => c.twinOn && c.phase = .ready && c.clock % 128 = 0 && (c.twin.sentFrame.isEmpty || field c.twin.sentFrame 8 8 ≠ c.clock))
    Core.sendTwinFrame

/-- Keeps what `f` queues for the partner out of the outbox: what the partner decided does not go back to it. -/
def Core.quiet (c : Core) (f : Core → Core) : Core :=
  let c1 := f c
  { c1 with twin := { c1.twin with outbox := c.twin.outbox, recSeq := c.twin.recSeq } }

/-- A Guard action decided by the partner (R260). -/
def Core.partnerGuard (c : Core) (item action cause : Nat) (value : Int) : Core :=
  if action = 5 then c.latch cause
  else if item < 32 then
    let p := item
    let c1 := match cause with
      | 0x0701 => ((c.setPe p 0x20 4 3).count (pIdx p 0x20) 6 1).modGuardPath p (fun g => { g with
          decisions := within60 g.decisions c.now (60 * second) ++ [c.now], oscLift := some (c.now + second) })
      | 0x0705 => c.setCdb (pIdx p 0x22) 4 (some value)
      | 0x0708 => c.setCdb (pIdx p 0x23) 3 (some value)
      | 0x0709 => (c.setPe p 0x23 5 3).modGuardPath p (fun g => { g with
          floorMutes := within60 g.floorMutes c.now (3600 * second) ++ [c.now], oobLift := some (c.now + second) })
      | 0x0706 => match c.rfinOf p with
        | some n => if n < 8 then c.setEnt 0x3121 (n + 1) 1 else c
        | none => c
      | 0x070B =>
        let c0 := c.modGuardPath p (fun g => { g with reflBackoff := true, reflMute := g.reflMute || action = 2 })
        -- the mute lifts here too, 1 s after the action, and counts here too (R170)
        if action ≠ 2 then c0
        else c0.each ((c.cfg.rfouts p).filter (fun o => c.ent (0x3140 + o) 1 = 1 && (c.refl o).liftAt.isNone)) (fun c o =>
          c.setRefl o { c.refl o with
            liftAt := some (c.now + second), mutes := within60 (c.refl o).mutes c.now (60 * second) ++ [c.now] })
      | 0 => c.setPe p 0x21 6 1
      | _ => c
    if cause = 0x0706 then c1.refreshOverload else c1.guardRefresh p
  else match cause with
    | 0x070E => ({ (c.setCdb 0x3102 0 (some value)) with guard := { c.guard with retryAt := some (c.now + 60 * second) } }).refreshNode
    | 0x070C => ({ c with guard := { c.guard with netStand := value ≠ 0 } }).recompute
    | 0x070D => (c.setEnt 0x3104 2 (if value ≠ 0 then 1 else 0)).recompute
    | _ => c

/-- Comparison item 7 at the STANDBY (R263): whether it decided the same on the same path within 8 Express windows. Where it
had not when the action arrived, the action applies and the manual states no later test: an open value. -/
def Core.compareDecision (c : Core) (p cause : Nat) : Core :=
  if !(c.isStandby && c.paired) || 32 ≤ p then c
  else
    let mine := c.twin.decisions.any (fun d => d.1 = p && d.2.1 = cause)
    let c1 := c.modTwin (fun t => { t with decisions := t.decisions.filter (fun d => !(d.1 = p && d.2.1 = cause)) })
    if mine then c1.compare 7 p true cause cause
    else
      let r := c1.draw
      r.2.compare 7 p (r.1 % 2 = 0) cause 0

/-- A compared value arrives at the STANDBY (R263). -/
def Core.compareValue (c : Core) (item p number v : Nat) : Core :=
  let key := item * 256 + p
  let own := if item = 3 then (c.pe p 0x11 1, c.pe p 0x11 2) else (c.pe p 0x1A 1, c.pe p 0x1A 9)
  if own.2 ≠ number || own.1 = noCdb || c.twin.compared.get (fun _ => 2 ^ 32) key = number then c
  else
    let c1 := c.modTwin (fun t => { t with compared := t.compared.put (fun _ => 2 ^ 32) key number })
    c1.compare item p (near (cdbInt v) (cdbInt own.1) (c.cdb 0x5030 (if item = 3 then 1 else 2))) v own.1

/-- Swap control (R254, R264, R269). -/
def Core.swapControl (c : Core) (b : List Byte) : Core :=
  match field b 0 1 with
  | 1 => if c.isStandby && c.ent 0x5002 0 = 2 then
      ((c.setEnt 0x5004 0 1).setEnt 0x5005 0 (field b 2 8)).modTwin (fun t => { t with
        swapTick := some (field b 2 8), swapKind := field b 1 1, swapOut := false, swapPhase := 1 })
    else c
  | 2 => if c.isActive && c.ent 0x5002 0 = 2 && !c.swapBusy then c.beginSwap (field b 1 1) else c
  | 3 => if c.isStandby then c.modTwin (fun t => { t with resetHold := true }) else c
  | _ => if c.isStandby && c.twin.selfTest.isNone then
      (({ c with twin := { c.twin with selfTest := some 1, selfTestAt := c.now } }).exitStep.setEnt 0x7000 3 (field b 1 1 % 8)).setEnt 0x7000 2 1
    else c

/-- The partner's health (R258): serial, address, and the strap conflict of R246. -/
def Core.partnerHealth (c : Core) (b : List Byte) : Core :=
  let c1 := (c.setEnt 0x5006 0 (field b 6 16)).setEnt 0x5007 0 (field b 4 2)
  let strap := bit (c.ent 0x1107 0) 5
  if (field b 3 1 = 1) = strap && !c1.entBit 0x5000 0 7 then
    let mine := ofLe serialNo
    let c2 := (c1.setEntBit 0x5000 0 7 true).emit 38 0x0A0B (d8 (mine % 256) ++ d8 (field b 6 1))
    c2.setEntBit 0x5000 0 1 (mine < field b 6 16)
  else c1

/-- The joiner's blocks as they arrive; at the end of a step it names what is missing (R259). -/
def Core.takeCopy (c : Core) (b : List Byte) : Core :=
  let step := field b 0 1
  let j := field b 1 2
  if c.ent 0x5002 0 ≠ 1 || !c.isStandby || c.ent 0x5040 2 ≠ step then c
  else if b.drop 3 = d8 0xFF then
    let missing := (List.range j).filter (fun k => (Tab.find? c.twin.blocks k).isNone)
    let c1 := c.modTwin (fun t => { t with copyEnd := some j })
    if missing.isEmpty then c1 else c1.twinSend 0x0D (d8 step ++ (missing.take 100).flatMap d16)
  else c.modTwin (fun t => { t with blocks := Tab.insert t.blocks j (b.drop 3) })

/-- An acknowledgement at the ACTIVE chip: the next step, or the missing blocks again (R259, R265). -/
def Core.takeAck (c : Core) (b : List Byte) : Core :=
  let step := field b 0 1
  if c.ent 0x5002 0 ≠ 1 || !c.isActive || c.ent 0x5040 2 ≠ step then c
  else if b.length = 1 then
    (if step = 2 then (c.setEnt 0x5040 2 3).modTwin (fun t => { t with blocks := [], copyEnd := none })
     else if step = 5 then (c.setEnt 0x5040 2 6).modTwin (fun t => { t with blocks := [], copyEnd := none })
     else c.sendStep (step + 1))
  else
    let l := (List.range ((b.length - 1) / 2)).map (fun k => field b (1 + 2 * k) 2)
    (l.foldl (fun c k => c.twinSend 0x0C (d8 step ++ d16 k ++ (Tab.find? c.twin.blocks k).getD [])) c).twinSend 0x0C
      (d8 step ++ d16 (c.twin.copyEnd.getD 0) ++ d8 0xFF)

/-- The STANDBY takes over the ACTIVE's frame timing (R260), after the comparison of item 2 with its own. -/
def Core.partnerTiming (c : Core) (b : List Byte) : Core :=
  if !(c.isStandby && c.paired) then c
  else
    let f := sInt 64 (field b 0 8)
    let own := match c.fe.jump with | some j => j | none => c.fe.frame16 + c.fe.slew16
    let ok := near f own (16 * (c.ent 0x5030 4 : Int))
    let c1 := c.compare 2 0 ok (rawOf 32 f) (rawOf 32 own)
    c1.quiet (fun c => ({ c with fe := { c.fe with frame16 := f, slew16 := 0, jump := none } }).setFrameState (field b 8 1))

/-- A commit's write at the STANDBY (R260): it joins the commit scheduled for its tick. -/
def Core.partnerCommit (c : Core) (b : List Byte) : Core :=
  if !(c.isStandby && c.paired) then c
  else
    let tick := field b 6 8
    let key := field b 14 4
    let w := match c.sched with | some m => if m.tick = tick then m.writes else [] | none => []
    let m : Sched := ⟨Tab.insert w key (ofLe (b.drop 18)), tick, field b 0 4⟩
    let c1 := (((c.setEnt 0x1104 5 tick).setEnt 0x1104 2 1).setEnt 0x1104 6 (field b 0 2)).setEnt 0x1104 7 (field b 4 2)
    ({ c1 with sched := some m }).placeRamps m.writes tick

/-- The pair's mode, causes, REFTUNE and coexistence at the STANDBY (R260). -/
def Core.partnerMode (c : Core) (b : List Byte) : Core :=
  if !(c.isStandby && c.paired) then c
  else
    let c1 := { (c.setEnt 0x1101 0 (field b 0 1)) with time := { c.time with reftune := field b 6 2 } }
    let c2 := if c1.latched || c1.thermalDown then c1 else (c1.setEnt 0x1102 0 (field b 2 4)).enterMode (field b 1 1)
    [0, 1].foldl (fun c k => c.setEnt (0x3260 + k) 4 (field b (8 + k) 1)) c2

/-- One record of a frame is applied (R258, R260). -/
def Core.takeRecord (c : Core) (kind : Nat) (b : List Byte) : Core :=
  match kind with
  | 0x01 | 0x02 => c.compareDecision (field b 0 1) (field b 10 2) |>.quiet (fun c =>
      c.partnerGuard (field b 0 1) (field b 1 1) (field b 10 2) (sInt 16 (field b 12 2)))
  | 0x03 => if c.isStandby && c.paired then
      c.pointsFollow (field b 0 1 % 2) (field b 1 1 % 2) (field b 2 8) else c
  | 0x04 => c.partnerTiming b
  | 0x05 => if c.isStandby && c.paired then
      c.modTwin (fun t => { t with slotIn := t.slotIn ++ [(field b 0 8, field b 8 1, sInt 32 (field b 9 4), stateOf (b.drop 13))] }) else c
  | 0x06 => c.partnerCommit b
  | 0x07 => if c.isStandby && c.paired then { c with later := c.later ++ [(field b 4 8, field b 0 4, ofLe (b.drop 12))] } else c
  | 0x08 => c.quiet (fun c => c.partnerMode b)
  | 0x09 => if c.isStandby && c.paired then c.compareValue (field b 0 1) (field b 1 1 % 32) (field b 2 4) (field b 6 2) else c
  | 0x0A => if c.isActive && c.paired && field b 2 1 = 0 then
      let key := field b 0 1 * 256 + field b 1 1
      let n := c.twin.mismatches.get (fun _ => 0) key + 1
      let c1 := c.modTwin (fun t => { t with mismatches := t.mismatches.put (fun _ => 0) key n })
      if field b 0 1 = 1 || c.ent 0x5030 5 ≤ n then c1.disagree (field b 0 1) (field b 1 1) (field b 3 4) (field b 7 4) else c1
    else if c.isActive && c.paired then
      c.modTwin (fun t => { t with mismatches := t.mismatches.put (fun _ => 0) (field b 0 1 * 256 + field b 1 1) 0 })
    else c
  | 0x0B => c.swapControl b
  | 0x0C => c.takeCopy b
  | 0x0D => c.takeAck b
  | _ => c.partnerHealth b

/-- The records of a frame in turn, each applied once by its sequence (R259). -/
def Core.takeRecords : Nat → Core → List Byte → Core
  | 0, c, _ => c
  | n + 1, c, l =>
    if l.length < 4 then c
    else
      let len := field l 1 1
      let seq := field l 2 2
      let rest := l.drop (4 + len)
      if l.length < 4 + len then c
      else if c.twin.applied.contains seq then Core.takeRecords n c rest
      else
        let c1 := c.modTwin (fun t => { t with applied := (seq :: t.applied).take 256 })
        Core.takeRecords n (c1.takeRecord (field l 0 1) ((l.drop 4).take len)) rest

/-- Comparison item 1 (R244, R263): the frame tick against the station clock. A STANDBY without a live path steps its clock
instead. -/
def Core.partnerClock (c : Core) (tick : Nat) : Core :=
  let d := sInt 64 ((c.clock + 2 ^ 64 - tick) % 2 ^ 64)
  let ok := tick % 128 = 0 && 0 < d && d ≤ 160
  if !c.isStandby then c
  else if c.paired then c.compare 1 0 ok (tick % 2 ^ 32) (c.clock % 2 ^ 32)
  else if !ok && c.ent 0x110A 0 = 0 then
    let r := c.drawIn 1 160
    r.2.stepClock ((tick + r.1.toNat) % 2 ^ 64) (Config.codeOf 10 % 256)
  else c

/-- A good frame arrives (R258 to R264): the link is up, the clock is compared, the pair state follows, and the records are
applied. -/
def Core.goodFrame (c : Core) (f : List Byte) : Core :=
  let flags := field f 2 1
  let role := flags % 4
  let c1 := (c.modTwin (fun t => { t with badFrames := 0, lastFrame := c.now })).setEntBit 0x5000 0 3 true
  let c2 := c1.partnerFound (role = 1)
  let c3 := if c2.isStandby && role = 1 && field f 4 4 ≠ 0 then c2.setEnt 0x5003 0 (field f 4 4) else c2
  let c4 := c3.partnerClock (field f 8 8)
  let settled := match c4.twin.joinFrom, c4.twin.protectedSince with
    | some t, _ => decide (t + 1024 < c4.now)
    | none, some t => decide (t + 1024 < c4.now)
    | none, none => false
  let c5 :=
    if c4.ent 0x5002 0 = 3 && bit flags 3 && c4.mayJoin then c4.joinStart
    else if c4.ent 0x5002 0 = 1 && bit flags 2 && c4.isActive && c4.ent 0x5040 2 = 6 then c4.joinDone
    else if c4.paired && settled && !bit flags 2 && !bit flags 3 then c4.exitStep
    else c4
  Core.takeRecords 256 c5 ((f.drop 20).take (min 740 (field f 18 2)))

/-- The stream breaks (R259): the pair leaves PROTECTED or JOINING. -/
def Core.streamBreak (c : Core) : Core :=
  ((c.setEntBit 0x5000 0 3 false).modTwin (fun t => { t with badFrames := 0 })).exitStep

/-- A twin frame arrives (R259): a discarded one is counted, two in a row break the stream. -/
def Core.receiveFrame (c : Core) (f : List Byte) : Core :=
  if f.length = 768 && field f 0 2 = 0x2B6E && field f 760 4 = crc32 (f.take 760) then c.goodFrame f
  else
    let c1 := ((c.count 0x5020 7 1).tally 38 0x0A08 []).modTwin (fun t => { t with badFrames := t.badFrames + 1 })
    if 2 ≤ c1.twin.badFrames then c1.streamBreak else c1

def execTwinFrameReceive (frame : List Byte) (s : State) : Out :=
  s.event (fun c => c.twinOn && c.phase = .ready) (fun c => c.receiveFrame frame)

/-- 384 ticks without a frame (R259). -/
def execTwinStreamBreak (s : State) : Out :=
  s.event (fun c => c.twinOn && c.linkUp && (2 ≤ c.twin.badFrames || c.twin.lastFrame + 384 ≤ c.now)) Core.streamBreak

/-- Twin operation at DEPOT ready (R246): the token toggles, the link comes up, and neither chip asserts PREEMPT_O. -/
def Core.twinStart (c : Core) : Core :=
  if !c.twinOn then c
  else
    let c1 := c.modTwin (fun t => { t with token := true, tokenMissing := some c.now })
    if c1.twin.preemptIn then ((c1.modTwin (fun t => { t with partnerSeen := true })).standBy 5).setPair 3 else c1

/-- What twin operation does on every tick: a claim or a driver enable that is due, the rejoin conditions, the easing of the
reintegration backoff, and Guard decisions that the ACTIVE chip has not matched (R250, R263, R267). -/
def Core.twinTick (c : Core) : Core :=
  if !c.twinOn then c
  else
    let c1 := if c.reached c.twin.claimAt then
        (if c.twin.preemptIn && !c.isStandby then c.modTwin (fun t => { t with claimAt := none }) else c.claim 1) else c
    let c2 := if c1.reached c1.twin.driversAt then c1.modTwin (fun t => { t with drivers := true, driversAt := none }) else c1
    let c3 := if c2.mayJoin then
        (if c2.twin.conditionsSince.isNone then c2.modTwin (fun t => { t with conditionsSince := some c2.now }) else c2)
      else if c2.twin.conditionsSince.isSome then c2.modTwin (fun t => { t with conditionsSince := none }) else c2
    let live := allPaths.all (fun p => !c3.entBit 0x110A 0 p || !c3.cfg.needsCeiling p || c3.pe p 0x1B 5 = 3)
    let c4 := if c3.cdb 0x5041 0 < 0 && c3.twin.easeAt.isNone && live then
        c3.modTwin (fun t => { t with easeAt := some (c3.now + second) }) else c3
    let old := c4.twin.decisions.filter (fun d => d.2.2 + 8 * c4.cfg.exLen d.1 + 448 < c4.now)
    old.foldl (fun c d => (c.modTwin (fun t => { t with decisions := t.decisions.filter (· ≠ d) })).compare 7 d.1 false 0 d.2.1) c4

end Sys2Proof.Machine
end

