-- ==== Sys2Proof/Machine/Modes.lean ====
section
/-! DEFINITION. Operating modes, reset and start-up (R26 to R45, R361, R461), and the loss of the sampling synthesiser's lock
(R47). -/

namespace Sys2Proof.Machine

/-- A write of the base mode (R29 to R32, R40, R335). -/
def modeAct (v : Nat) : Act := coreAct (fun c =>
  if c.mode = mIsolate || v = 3 || v = 5 || (v = 2 && c.ent 0x110C 0 = 1) || (v ≠ 0 && c.entBit 0x1106 0 6) then (0x0203, c)
  else if c.ent 0x5102 0 = 4 && v ≠ 4 then (0x0701, c)
  else (0, (c.setEnt 0x1101 0 v).recompute))

def execModeRequest (o : Origin) (v : Byte) (s : State) : Out :=
  .next (s.serveWrite o 0x1101 0 (d8 v.toNat) (modeAct v.toNat))

/-- Whether a latching cause can be observed with the transmit converters off (R174). -/
def observable (cause : Nat) : Bool := cause = 0x070C || cause = 0x070D

/-- What a qualified restart does once accepted (R43, R174): the latch is cleared in persistent state, the Guard's timers go
on, the sweeps owed are listed, and the base mode becomes DEPOT. -/
def Core.restart (c : Core) : Core :=
  let owed := if observable (c.ent 0x1103 2) then 0
    else maskOf (allPaths.filter (fun p => c.cfg.needsCeiling p))
  let c1 := { (c.persistUnit [(0, 0)]) with latched := false }
  let c2 := if owed = 0 then c1
    else ((c1.setEnt 0x3007 0 owed).setEnt 0x110C 0 1).persistUnit [(entKey 0x3007 0, owed), (entKey 0x110C 0, 1)]
  (c2.resumeGuard.setEnt 0x1101 0 0).recompute

/-- A write of 0x1103.04 (R43): its reasons read back there. On a pair the restart reaches the STANDBY too (R260). -/
def restartAct (o : Origin) (v : Nat) : Act := coreAct (fun c =>
  let refuse := fun (reason code : Nat) => (code, c.setEnt 0x1103 4 reason)
  if c.mode ≠ mIsolate then refuse 1 0x0203
  else if v ≠ c.ent 0x1103 1 then refuse 2 0x0204
  else if !c.causeClear then refuse 3 0x0204
  else
    let c1 := (c.setEnt 0x1103 4 0).restart.emit 0 0x0106 (d16 (originAddress o) ++ d16 o.tag.toNat)
    (0, if c1.isActive then c1.twinSend 0x07 (d32 (entKey 0x1103 4) ++ leBytes 8 c1.clock ++ d16 v) else c1))

def execQualifiedRestart (o : Origin) (v : Half) (s : State) : Out :=
  .next (s.serveWrite o 0x1103 4 (d16 v.toNat) (restartAct o v.toNat))

/-- Power-on, or a supply lost without a sag decision (R36 cause 0). The TAP resets with VDD_IO (R440). -/
def execPowerOnReset (s : State) : Out := .next { (s.doReset 0 none) with jtag := Jtag.init }

/-- RESET_N low (R36, R458): 2.0 µs or more resets, 0.5 µs or less is ignored, and between the two it is open which. In a
reset already under way the low only holds it. -/
def execResetNLow (nanoseconds : Nat) (s : State) : Out :=
  .next (
    let r := s.core.draw
    let taken := 2000 ≤ nanoseconds || (500 < nanoseconds && r.1 % 2 = 1)
    let s1 := if nanoseconds ≤ 500 || 2000 ≤ nanoseconds then s else { s with core := r.2 }
    if !taken then s1
    else if s1.core.phase = .held then s1.onCore (fun c => { c with resetLow := true })
    else s1.orderReset 1)

/-- A write of 0x1108 (R36, R404): the book takes no further record, a freeze is released, and the queue is written out. -/
def resetAct1 (v : Nat) : Act := fun s =>
  if v ≠ 0xC1A5 then (0x0301, 0, s)
  else
    let frozen := s.book.frozen.isSome
    let s1 := { s.collect with book := { s.collect.book with
      closed := true, frozen := none, releasedByReset := frozen, drainBy := some (s.core.now + 25165824) } }
    let s2 := if frozen then s1.onCore (fun c => (c.setEnt 0x6410 0 0).setEntBit 0x6400 0 0 false) else s1
    (0, 0, s2.kick)

def execResetCommand (o : Origin) (v : Half) (s : State) : Out :=
  .next (s.serveWrite o 0x1108 0 (d16 v.toNat) (resetAct1 v.toNat))

/-- The partner's hold on reset, ordered over the twin link (R36 cause 3, R264). -/
def execTwinResetHold (s : State) : Out := .next (if s.core.twin.resetHold then s.orderReset 3 else s)

/-- The release of reset (R38, R354, R36): the save domain has written what it keeps, and the straps are latched. Boundary scan
meets no running part (R442). -/
def execResetRelease (straps : BitVec 7) (s : State) : Out :=
  .next (if s.core.phase ≠ .held || s.nv.unit.isSome || !s.core.persist.isEmpty then s
    else
      let v := straps.toNat
      let s1 := s.onCore (fun c =>
        let c1 := ((c.setEnt 0x1107 0 v).setEnt 0x1200 0 (bits v 3 2)).setEnt 0x6340 2 (0x58 + bits v 1 0)
        let c2 := (c1.setEntBit 0x5000 0 0 (bit v 4)).setEntBit 0x5000 0 1 (bit v 4 && bit v 5)
        { (c2.setEntBit 0x6100 0 0 true) with phase := .released, resetLow := false, since := c2.now })
      if s1.jtag.ir = 0x00 || s1.jtag.ir = 0x04 || s1.jtag.ir = 0x05 then
        { s1 with jtag := { s1.jtag with ir := 0x01, inForce := none, dr := 1 } }
      else s1)

/-- The good pages of a group of a save, up to the first that is not (R361). -/
def Nv.group (n : Nv) (slot : Nat) : List Nat → List (List Byte)
  | [] => []
  | k :: r =>
    let raw := n.saves.get (fun _ => 0) (saveKey slot k)
    if pageGood raw then leBytes 252 raw :: Nv.group n slot r else []

def Nv.goodPages (n : Nv) (slot : Nat) : Nat :=
  ((List.range 81).filter (fun k => pageGood (n.saves.get (fun _ => 0) (saveKey slot k)))).length

/-- The header of a save slot, where its page 0 is good and its state is not superseded. -/
def Nv.header (n : Nv) (slot : Nat) : Option (List Byte) :=
  let raw := n.saves.get (fun _ => 0) (saveKey slot 0)
  if pageGood raw && field (leBytes 252 raw) 18 1 ≠ 3 then some (leBytes 252 raw) else none

/-- The newest save by sequence (R361). -/
def Nv.newestSave (n : Nv) : Option (Nat × List Byte) :=
  ((List.range 12).filterMap (fun j => (n.header j).map (fun h => (j, h)))).foldl (fun best e =>
    match best with
    | none => some e
    | some b => if diff32 (field e.2 4 4) (field b.2 4 4) < 2 ^ 31 then some e else some b) none

/-- The persistent-state units and the records of a save. -/
def Nv.savedUnits (n : Nv) (slot : Nat) : List (List (Nat × Nat)) :=
  ((n.group slot [1, 2]).flatMap (fun b => [unitOfBytes (b.take 64), unitOfBytes ((b.drop 64).take 64)])).filter
    (fun u => !u.isEmpty)
def Nv.savedRecords (n : Nv) (slot : Nat) : List (List Byte) :=
  ((n.group slot ((List.range 74).map (· + 6))).flatMap (fun b =>
    (List.range 7).map (fun j => (b.drop (32 * j)).take 32))).filter (fun r => field r 30 2 = 0x5AC3)

/-- A saved decision or mute counts toward its escalation again (R361). -/
def Core.countAgain (c : Core) (kind : Nat) : Core :=
  if kind < 32 then c.modGuardPath kind (fun g => { g with decisions := g.decisions ++ [c.now] })
  else if 64 ≤ kind && kind < 96 then c.modGuardPath (kind - 64) (fun g => { g with floorMutes := g.floorMutes ++ [c.now] })
  else if 128 ≤ kind && kind < 136 then
    c.setRefl (kind - 128) { c.refl (kind - 128) with mutes := (c.refl (kind - 128)).mutes ++ [c.now] }
  else c

/-- The Guard escalation state of a save, in the layout this model gives pages 3 to 5. -/
def Core.restoreEscalation (c : Core) (data : List Byte) : Core :=
  let kinds := ((List.range (field data 2 1)).filter (fun k => 8 + 5 * k ≤ data.length)).map (fun k => field data (3 + 5 * k) 1)
  let c1 := kinds.foldl Core.countAgain c
  let b := field data 0 2
  if sInt 16 b < 0 then
    ({ (c1.setEnt 0x3102 0 b) with guard := { c1.guard with retryAt := some (c1.now + 60 * second) } }).refreshNode
  else c1

/-- Everything saved counts from DEPOT ready on (R361). -/
def Core.countFromReady (c : Core) : Core :=
  let again := fun (l : List Nat) => l.map (fun _ => c.now)
  let c1 := c.each allPaths (fun c p => c.modGuardPath p (fun g => { g with
    decisions := again g.decisions, floorMutes := again g.floorMutes }))
  let c2 := c1.each (List.range 8) (fun c o => c.setRefl o { c.refl o with mutes := again (c.refl o).mutes, lastFresh := c.now })
  { c2 with guard := { c2.guard with retryAt := c2.guard.retryAt.map (fun _ => c2.now + 60 * second) } }

/-- The persistent-state step of R39: units carried or saved reach persistent state, the entries it holds and the latch are
read, and the newest save is applied (R36, R361): its units are the engine's within this step, and its header goes to the
engine as superseded. The book opens at its end (R406, R407). -/
def State.readPersistent (s : State) : State :=
  let found := s.nv.newestSave
  let units := s.book.carried ++ (match found with | some (j, _) => s.nv.savedUnits j | none => [])
  let nv1 := units.foldl (fun n u => n.perform (.persist u)) s.nv
  let entries := nv1.persistent.filter (fun e => e.1 ≠ 0)
  let c1 := { s.core with
    dict := entries.foldl (fun (d : Tab Nat) (e : Nat × Nat) => Tab.put entryDefault d e.1 e.2) s.core.dict
    latched := decide (nv1.persistent.get (fun _ => 0) 0 = 1)
    ident := { s.core.ident with roster := nv1.roster } }
  let c2 := if c1.ent 0x1105 0 = 0 then
      let c' := c1.count 0x1121 0 1
      c'.persistUnit [(entKey 0x1121 0, c'.ent 0x1121 0)]
    else c1
  let c3 := { c2 with guard := { c2.guard with latchCause := if c2.latched then c2.ent 0x1103 2 else 0, netAt := c2.now } }
  let c4 := c3.setEntBit 0x1106 0 5 c3.latched
  match found with
  | none => ({ s with core := c4, nv := nv1 }).openBook (c4.ent 0x1105 0) false []
  | some (j, h) =>
    let good := nv1.goodPages j
    let status := if pageGood (nv1.saves.get (fun _ => 0) (saveKey j 80)) then 1 else 2
    let c5 := (c4.setEntBit 0x1106 0 8 true).count 0x6111 0 1
    let c6 := c5.persistUnit [(entKey 0x6111 0, c5.ent 0x6111 0)]
    let c7 := ((((c6.setEnt 0x6110 1 status).setEnt 0x6110 2 (field h 4 4)).setEnt 0x6110 3 (field h 8 8)).setEnt 0x6110 5 good).setEnt
      0x6110 6 (field h 17 1)
    let c8 := ((c7.setEntBit 0x6100 0 4 (status = 1)).restoreEscalation (nv1.group j [3, 4, 5]).flatten).emit 43 0x0F05
      (d32 (field h 4 4) ++ d8 status ++ d8 good)
    let records := (nv1.savedRecords j).map (fun r => let b := (r.take 11) ++ d8 (setBit (field r 11 1) 2 true) ++ ((r.drop 12).take 16)
      b ++ d16 (crc16 b) ++ d16 0x5AC3)
    let nv2 := { nv1 with superseding := some j, saveLast := j }
    ({ s with core := c8, nv := nv2 }).openBook (c8.ent 0x1105 0) true records

/-- The entries an image carries (R42): RW and RWD, neither marked as not saved nor held in persistent state. -/
def saved (i sub : Nat) : Bool :=
  (rowOf i sub).any (fun r => (r.acc = .rw || r.acc = .rwd) && !r.marks.contains .notSaved && !r.marks.contains .persistent)

/-- Their keys, in ascending order (R461). -/
def savedKeys : List Nat :=
  ((List.range 0x7100).filter indexExists).flatMap (fun i => ((List.range 256).filter (saved i)).map (entKey i))

def widthOf (key : Nat) : Nat := (rowOf (key / 256) (key % 256)).map (fun r => r.ty.width) |>.getD 0

/-- The image bytes of the values in force (R461). -/
def Core.imageBytes (c : Core) : List Byte :=
  savedKeys.flatMap (fun k =>
    let n := widthOf k
    d16 (k / 256) ++ d8 (k % 256) ++ d8 0 ++ d16 n ++ leBytes n (c.dict.get entryDefault k))

/-- Reads an image's records (R461): keys rise, lengths match, and the last record ends at the image's end. -/
def parseImage : Nat → Nat → List Byte → Option (Tab Nat)
  | _, _, [] => some []
  | 0, _, _ :: _ => none
  | n + 1, least, b =>
    let key := entKey (field b 0 2) (field b 2 1)
    let len := field b 4 2
    if b.length < 6 + len || key < least || !saved (field b 0 2) (field b 2 1) || len ≠ widthOf key then none
    else (parseImage n (key + 1) (b.drop (6 + len))).map (fun t => (key, field b 6 len) :: t)

/-- The configuration of an image: what it does not name takes its default. -/
def imageCfg (t : Tab Nat) : Cfg := fun i sub => (Tab.find? t (entKey i sub)).getD (entryDefault (entKey i sub))

/-- Whether every value of an image is one its entry takes. -/
def Core.imageValues (c : Core) (t : Tab Nat) : Bool :=
  let c1 := { c with dict := t }
  t.all (fun e => (rowOf (e.1 / 256) (e.1 % 256)).any (fun r => r.ty.valid e.2 && r.inRange e.2) &&
    c1.customRange (e.1 / 256) (e.1 % 256) e.2)

/-- A slot that passes its first four checks of R41, read as entries where its records can be read. -/
def slotImage (b : List Byte) : Option (Tab Nat) := let len := field b 12 4; parseImage len 0 ((b.drop 64).take len)

/-- The first condition of R41 that a slot fails, 0 where it is valid: 1 magic and format version, 2 length, 3 CRCs, 4 epoch,
5 configuration. -/
def Core.slotCheck (c : Core) (b : List Byte) : Nat :=
  let len := field b 12 4
  let image := (b.drop 64).take len
  if b.length < 64 || field b 0 4 ≠ 0x32161C0A || field b 4 2 ≠ 1 then 1
  else if 1048512 < len then 2
  else if field b 60 4 ≠ crc32 (b.take 60) || b.length < 64 + len || field b 16 4 ≠ crc32 image then 3
  else if field b 8 4 = 0 || field b 8 4 = 0xFFFFFFFF then 4
  else match slotImage b with
    | none => 5
    | some t => if c.imageValues t && ((imageCfg t).refusal (fun _ => false)).isNone then 0 else 5

/-- A slot found invalid (R41, R88): record 0x0105 with the slot and the first check it failed; where a chapter's check refused
its configuration, that chapter's refused-check entry and record as well. -/
def Core.slotRefused (c : Core) (slot : Nat) (b : List Byte) : Core :=
  let k := c.slotCheck b
  if k = 0 then c
  else
    let c1 := match k, slotImage b with
      | 5, some t => if c.imageValues t then (match (imageCfg t).refusal (fun _ => false) with | some (_, f) => f c | none => c) else c
      | _, _ => c
    c1.emit 0 0x0105 (d8 slot ++ d8 k)

def slotEpoch (b : List Byte) : Nat := field b 8 4

/-- The choice of R41: 0 defaults, 1 slot A, 2 slot B. -/
def chooseSlot (safeboot : Bool) (selector : Nat) (goodA goodB : Bool) (epochA epochB : Nat) : Nat :=
  if safeboot then 0
  else match selector with
    | 1 => if goodA then 1 else if goodB then 2 else 0
    | 2 => if goodB then 2 else if goodA then 1 else 0
    | _ => if goodA && goodB then (if epochB ≤ epochA then 1 else 2) else if goodA then 1 else if goodB then 2 else 0

/-- What loaded LIVE entries start: interval lengths, REFTUNE's base code, the LOs. -/
def Core.loadLive (c : Core) : Core :=
  let c1 := c.each allPaths (fun c p => c.modPath p (fun s => { s with stLen := c.pe p 0x10 1 }))
  let c2 := { c1 with time := { c1.time with reftuneBase := c1.ent 0x1230 2, reftune := c1.ent 0x1230 2 } }
  c2.each [0, 1] (fun c l => if c.ent (0x1210 + l) 1 = 0 then c else c.loRetune l (c.ent (0x1210 + l) 1))

/-- The calibration and image step of R39 (R40, R41, R331): calibration and identity store, the response ROM (R114), then the
slots and the image. -/
def State.loadImage (s : State) : State :=
  let c := s.core
  let a := c.slotCheck s.nv.slotA
  let b := c.slotCheck s.nv.slotB
  let pick := chooseSlot (c.entBit 0x1107 0 6) (c.ent 0x1110 0) (a = 0) (b = 0) (slotEpoch s.nv.slotA) (slotEpoch s.nv.slotB)
  let bytes := if pick = 1 then s.nv.slotA else s.nv.slotB
  let t : Tab Nat := if pick = 0 then [] else (parseImage (field bytes 12 4) 0 ((bytes.drop 64).take (field bytes 12 4))).getD []
  let c1 := (((((c.setEntBit 0x1106 0 6 (!s.nv.factoryGood)).setEntBit 0x1106 0 7 (!s.nv.fieldGood)).setEntBit 0x1106 0 0
    (a = 0)).setEntBit 0x1106 0 1 (b = 0)).setEntBit 0x1106 0 2 (pick ≠ 0)).setEntBit 0x1106 0 3 (pick = 0)
  let c2 := c1.setEntBit 0x1106 0 4 (pick ≠ 0 && c.ent 0x1110 0 ≠ 0 && pick ≠ c.ent 0x1110 0)
  let c3 := { (if Config.storeGood then c2 else (c2.setEnt 0x5205 0 1).emit 41 0x0D01 []) with
    ident := { c2.ident with storeGood := Config.storeGood } }
  let c5 := ((c3.romChecked Config.romGood).slotRefused 1 s.nv.slotA).slotRefused 2 s.nv.slotB
  let c6 := if pick = 0 then c5 else c5.emit 0 0x0104 (d8 pick)
  let c7 := (c6.setEnt 0x1111 1 pick).setEnt 0x1111 2 (if pick = 0 then 0 else slotEpoch bytes)
  let c8 := { c7 with dict := t.foldl (fun (d : Tab Nat) (e : Nat × Nat) => Tab.put entryDefault d e.1 e.2) c7.dict }
  let c9 := (c8.applyConfig (fun i sub => entryDefault (entKey i sub))).loadLive
  { s with core := if s.nv.fieldGood then c9.restoreSweeps s.nv.sweeps else c9 }

/-- Lock at start-up (R39, R53): the station clock counts from 0; then the steps that follow lock. -/
def State.startLock (s : State) : State :=
  let c1 := { s.core with phase := .locked, clock := 0, ticking := true, since := s.core.now }
  let c2 := ((c1.setEnt 0x1201 0 3).setEnt 0x1221 0 0).emit 1 0x0205 (d8 0xFF ++ d8 0 ++ d8 0)
  let s1 := ({ s with core := c2 }).readPersistent.collect
  let s2 := s1.loadImage
  let c3 := match s2.core.supply.heldRecord with
    | some (cause, hold) => s2.core.emit 43 0x0F07 (d8 cause ++ d32 hold)
    | none => s2.core
  { s2 with core := if c3.latched then
      { ((c3.setEnt 0x1102 0 c3.causes).setEnt 0x1100 0 mIsolate) with guard := { c3.guard with isolateSince := some c3.now } } else c3 }

def execStartLock (s : State) : Out := .next (if s.core.phase = .released then s.startLock.kick else s)

/-- DEPOT ready (R39): IRQ_N with the start-up cause, record 0x0103, the start mode, converters, two-wire channels (R386) and
the twin (R246). DESIGN CHOICE (log 121): the record's copy of 0x1106 is taken before the start mode is withheld. -/
def Core.depotReady (c : Core) : Core :=
  let c1 := (({ c with phase := .ready, since := c.now }).countFromReady.irq 0).emit 0 0x0103
    (d8 (c.ent 0x1105 0) ++ d32 (c.ent 0x1106 0) ++ d8 (c.ent 0x1107 0))
  let start := c1.ent 0x110B 0
  let withheld := start = 2 && c1.ent 0x110C 0 = 1
  let c2 := c1.setEntBit 0x1106 0 9 withheld
  let base := if c2.latched || c2.entBit 0x1106 0 6 || withheld then 0 else start
  let c3 := c2.each [0, 1, 2, 3] (fun c ch =>
    let c' := c.twApply ch
    c'.setTwc ch { c'.twc ch with highAt := c'.now, checkAt := c'.now + (if ch < 2 then c'.ent (0x6300 + ch) 5 * ms else 0) })
  ((c3.setEnt 0x1101 0 base).refreshConverters.twinStart).recompute

def execDepotReady (s : State) : Out :=
  .next (if s.core.phase = .locked then s.onCore Core.depotReady else s)

/-- The slot a save goes to (R24, R42): not the running one; from defaults an invalid one, the lower epoch, or A. -/
def State.saveTarget (s : State) : Nat :=
  match s.core.ent 0x1111 1 with
  | 1 => 2
  | 2 => 1
  | _ =>
    let bad := fun (k : Nat) => s.nv.erasing.contains k || s.core.slotCheck (s.nv.slot k) ≠ 0
    if bad 1 then 1 else if bad 2 then 2 else if slotEpoch s.nv.slotB < slotEpoch s.nv.slotA then 2 else 1

/-- The epoch of the next save (R42). -/
def State.nextEpoch (s : State) : Nat :=
  let e := fun (k : Nat) =>
    if !s.nv.erasing.contains k && s.core.slotCheck (s.nv.slot k) = 0 then slotEpoch (s.nv.slot k) else 0
  max (e 1) (e 2) + 1

/-- A slot's bytes: header and image (R41, R461). -/
def State.slotBytes (s : State) (o : Origin) (epoch : Nat) : List Byte :=
  let image := s.core.imageBytes
  let h := d32 0x32161C0A ++ d16 1 ++ d16 64 ++ d32 epoch ++ d32 image.length ++ d32 (crc32 image) ++ leBytes 8 s.core.clock ++
    d16 (originAddress o) ++ d16 o.tag.toNat ++ List.replicate 28 0#8
  h ++ d32 (crc32 h) ++ image

/-- A write of 0x1112 (R42): an image save begins. -/
def imageSaveAct (o : Origin) (v : Nat) : Act := fun s =>
  if v ≠ 1 then (0x0301, 0, s)
  else if s.nv.job.isSome then (0x0205, 0, s)
  else
    let epoch := s.nextEpoch
    if epoch = 0xFFFFFFFF then (0x0204, 0, s.onCore (fun c => c.setEnt 0x1112 0 2))
    else
      let s1 := { s with nv := { s.nv with job := some ⟨s.saveTarget, s.slotBytes o epoch, 0⟩ } }
      (0, 0, (s1.onCore (fun c => c.setEnt 0x1112 0 1)).kick)

def execImageSave (o : Origin) (v : Byte) (s : State) : Out :=
  .next (s.serveWrite o 0x1112 0 (d8 v.toNat) (imageSaveAct o v.toNat))

/-- The last page of an image save is written: its read-back decides the result (R42). -/
def State.imageSaved (s : State) : State :=
  match s.nv.job with
  | none => s
  | some j =>
    let there := s.nv.slot j.slot
    let s1 := { s with nv := { s.nv with job := none } }
    s1.onCore (fun c => c.setEnt 0x1112 0 (if there = j.bytes then 0 else 4))

def execImageSaveDone (s : State) : Out :=
  .next (match s.nv.job with
    | some j => if j.bytes.length ≤ 256 * j.page then s.imageSaved else s
    | none => s)

/-- A write of 0x1115 erases a slot other than the running one (R24, R42): the engine erases it as one unit. -/
def slotEraseAct (v : Nat) : Act := fun s =>
  if v ≠ 1 && v ≠ 2 then (0x0301, 0, s)
  else if v = s.core.ent 0x1111 1 then (0x0204, 0, s)
  else if s.nv.job.any (fun j => j.slot = v) then (0x0205, 0, s)
  else (0, 0, ({ s with nv := { s.nv with erasing := s.nv.erasing ++ [v] } }).kick)

def execSlotErase (o : Origin) (v : Byte) (s : State) : Out :=
  .next (s.serveWrite o 0x1115 0 (d8 v.toNat) (slotEraseAct v.toNat))

/-- An hour of power has passed (R45). -/
def execPowerOnHour (s : State) : Out :=
  s.event Core.awake (fun c =>
    let c1 := c.count 0x1120 0 1
    c1.persistUnit [(entKey 0x1120 0, c1.ent 0x1120 0)])

/-- The sampling synthesiser loses lock (R47). -/
def Core.lockLost (c : Core) : Core :=
  let r := c.draw
  let c1 := ((r.2.setEntBit 0x1201 0 0 false).setEntBit 0x1201 0 1 (r.1 % 2 = 1)).count 0x1202 0 1
  let c2 := { (c1.emit 1 0x0201 []) with time := { c1.time with qualified := [] } }
  let c3 := (c2.setEntBit 0x5100 0 2 false).setTime 4 0
  (c3.withdraw 2).refreshPaths

def execLockLoss (s : State) : Out := s.event (fun c => c.awake && c.entBit 0x1201 0 0) Core.lockLost

/-- The synthesiser relocks (R47): record 0x0202, and station time is acquired anew. -/
def Core.relocked (c : Core) : Core :=
  let c1 := ((c.setEntBit 0x1201 0 0 true).setEntBit 0x1201 0 1 true).emit 1 0x0202 []
  ((c1.setTime 1 0).restoreToken 2).refreshPaths

def execRelock (s : State) : Out := s.event (fun c => c.awake && !c.entBit 0x1201 0 0) Core.relocked

end Sys2Proof.Machine
end

