-- ==== Sys2Proof/Machine/Serve.lean ====
section
/-! DEFINITION. The dictionary engine (R15, R304 to R315): what a write of each entry does, LIVE or STAGED, what a read of each
entry returns, and the service of a request in a transport's buffer. -/

namespace Sys2Proof.Machine

/-- What a write does for an entry that has a row of its own, or an action behind it; `none` where it only stores. -/
def ownAct (o : Origin) (i sub : Nat) (bytes : List Byte) : Option Act :=
  let v := ofLe bytes
  let k := canon i
  match k.1, sub with
  | 0x1101, 0 => some (modeAct v)
  | 0x1103, 4 => some (restartAct o v)
  | 0x1104, 2 => some (commitAct o v)
  | 0x1108, 0 => some (resetAct1 v)
  | 0x1112, 0 => some (imageSaveAct o v)
  | 0x1115, 0 => some (slotEraseAct v)
  | 0x1132, 0 => some (counterAct o v)
  | 0x1134, 0 => some (irqAct v)
  | 0x1210, 1 => some (loFrequencyAct 0 v)
  | 0x1211, 1 => some (loFrequencyAct 1 v)
  | 0x1210, 6 => some (loCalibrationAct 0 v)
  | 0x1211, 6 => some (loCalibrationAct 1 v)
  | 0x1227, 2 => some (timeSetAct v)
  | 0x2003, 0 => some (muteAct k.2 v)
  | 0x2009, 5 => some (syncResetAct k.2 v)
  | 0x2010, 1 => some (stoppingWriteAct k.2 v)
  | 0x2010, 3 => some (maximaAct k.2 v)
  | 0x2019, 5 => some (freezeTapsAct k.2 v)
  | 0x2019, 6 => some (tapResetAct k.2 v)
  | 0x201C, 1 => some (sweepAct k.2 v)
  | 0x2886, 0 => some (lifetimeAct v)
  | 0x2A02, 0 => some (compositeMaximaAct v)
  | 0x2A10, 8 => some (captureAct k.2 v)
  | 0x3104, 1 => some (lineStopAct o v)
  | 0x4801, 8 => some (faultClearAct k.2 v)
  | 0x5004, 0 => some (swapAct v)
  | 0x5040, 1 => some (joinAct v)
  | 0x5210, 1 => some (attestAct bytes)
  | 0x5233, 0 => some (rosterAct o bytes)
  | 0x5235, 0 => some (pendingAct o (field bytes 0 2) ((bytes.drop 2).take 8) (field bytes 10 1))
  | 0x6203, 1 => some (hkUrgentAct v)
  | 0x6210, 8 => some (hkTriggerAct k.2 v)
  | 0x6222, 0 => some (hkMarkAct v)
  | 0x6300, 6 => some (twResetAct k.2 v)
  | 0x6310, 5 => some (twTransferAct k.2 v)
  | 0x6410, 0 => some (freezeAct v)
  | 0x6430, 3 => some (exportAct v)
  | 0x7000, 1 => some (selfTestAct v)
  | 0x7010, 7 => some (proveAct v)
  | _, _ => none

/-- Step 11 of R309 for entries that only store: a repeated source code (R54), a capture that runs (R130), a host transfer
that runs (R388). -/
def Core.liveRefusal (c : Core) (i sub v : Nat) : Nat :=
  let k := canon i
  if k.1 = 0x1223 && 1 ≤ sub && sub ≤ 3 && v ≠ 0 && [1, 2, 3].any (fun j => j ≠ sub && c.ent 0x1223 j = v) then 0x0301
  else if k.1 = 0x2A10 && 1 ≤ sub && sub ≤ 7 && c.capturing k.2 then 0x0205
  else if k.1 = 0x6310 && 1 ≤ sub && sub ≤ 4 && c.ent i 5 = 1 then 0x0205
  else 0

/-- A write to a gain or level entry ends the SHUNT mute of every path on the same RFOUTs (R27). -/
def Core.endShuntMute (c : Core) (p : Nat) : Core :=
  let outs := c.cfg.rfouts p
  (p :: allPaths.filter (fun q => (c.cfg.rfouts q).any outs.contains)).foldl (fun c q =>
    if (c.path q).guard.shuntMute then (c.modGuardPath q (fun g => { g with shuntMute := false })).refreshPath q else c) c

/-- A write of the source order takes effect on the source in use (R54). -/
def Core.reorder (c : Core) : Core :=
  let best := c.bestSource c.time.qualified
  let cur := c.ent 0x1222 0
  if best = cur then c
  else if best ≠ 0 then c.setTime 2 best
  else c.setTime (if c.ent 0x1221 0 = 2 then 3 else c.ent 0x1221 0) 0

/-- What follows a LIVE value at its entry (R14). -/
def Core.liveEffect (c : Core) (old i sub v : Nat) : Core :=
  let k := canon i
  let p := k.2
  match k.1, sub with
  | 0x1110, 0 => c.persistUnit [(entKey i sub, v)]
  | 0x1223, 0 | 0x1223, 4 => c
  | 0x1223, _ => c.reorder
  | 0x1224, 0 => { c with time := { c.time with
      holdoverAt := c.time.holdoverAt.map (fun t => t + v * second - old * second) } }
  | 0x122D, 0 =>
    if c.ppsAllowed then c else { c with time := { c.time with ppsOut := false, ppsFall := none } }
  | 0x1230, 1 => if v = 1 && old ≠ 1 then { c with time := { c.time with reftuneBase := c.ent 0x1230 2 } } else c
  | 0x2002, 1 => (((c.refreshLevel p).refreshGain p).refreshPath p).endShuntMute p
  | 0x201C, 2 => c.endShuntMute p
  | 0x2021, 1 => c.squelchEntry p
  | 0x2021, 5 => c.guardRefresh p
  | 0x3110, 4 => c.refreshNode
  | 0x3140, 1 => (c.setRefl p { c.refl p with lastFresh := c.now, stale := false }).refreshStale
  | 0x6010, 1 => c.restartFlag [0]
  | 0x6010, 2 => c.restartFlag [1]
  | 0x6010, 4 => c.restartFlag [0, 1, 2]
  | 0x6220, 3 => c.setEnt 0x6220 4 (c.ent 0x6220 4 - (v + 4096 - old) % 4096)
  | _, _ => c

/-- A LIVE value takes effect. -/
def Core.storeLive (c : Core) (i sub v : Nat) : Core :=
  let old := c.ent i sub
  let w := cleanValue i sub v
  (c.setEnt i sub w).liveEffect old i sub w

/-- A LIVE write at its effect tick (R260): what the entry's own write does, or its value stored. -/
def Core.applyLive (c : Core) (i sub v : Nat) : Core :=
  let k := canon i
  match k.1, sub with
  | 0x1103, 4 => if c.latched then c.restart else c
  | 0x1210, 1 => c.loFrequency 0 v
  | 0x1211, 1 => c.loFrequency 1 v
  | 0x2003, 0 => c.muteWrite k.2 v
  | 0x2010, 1 => c.stoppingWrite k.2 v
  | _, _ => c.storeLive i sub v

/-- Whether the pair shares a LIVE entry: those an image carries. Cursors, transport state and commands are each chip's own
(R260, R262). -/
def mirrored (i sub : Nat) : Bool := saved i sub && (rowOf i sub).any (fun r => !r.staged)

/-- A write to an entry without an action of its own (R307, R315, R262): STAGED it joins the pending set, or a STANDBY's held
writes; LIVE it takes effect at once, or on both chips of a pair. An RWD entry leaves its change record (R336). -/
def plainAct (o : Origin) (i sub v : Nat) : Act := fun s =>
  match rowOf i sub with
  | none => (0x0102, 0, s)
  | some r =>
    let note := fun (c : Core) => if r.acc = .rwd then c.changeRecord o i sub else c
    let w := cleanValue i sub v
    if r.staged then
      if s.core.isStandby && r.marks.contains .twinLocal then
        (0, 8, s.onCore (fun c => note { c with heldLocal := c.heldLocal.insert (entKey i sub) w }))
      else if i = 0x5101 && sub = 3 && s.core.ent 0x5002 0 = 0 then (0x0204, 0, s)
      else
        let a := s.core.stageWrite o i sub w
        if a.1 ≠ 0 then (a.1, 0, s) else (0, 2, s.onCore (fun _ => note a.2))
    else
      let refused := s.core.liveRefusal i sub w
      if refused ≠ 0 then (refused, 0, s)
      else if s.core.shared && mirrored i sub then (0, 0, s.onCore (fun c => note (c.defer i sub w)))
      else (0, 0, s.onCore (fun c => note (c.storeLive i sub w)))

/-- What a write does once R309 steps 1 to 10 pass. -/
def entryAct (o : Origin) (i sub : Nat) (bytes : List Byte) : Act := (ownAct o i sub bytes).getD (plainAct o i sub (ofLe bytes))

def execEntryWrite (o : Origin) (index : Half) (sub : Byte) (value : List Byte) (s : State) : Out :=
  .next (s.serveWrite o index.toNat sub.toNat value (entryAct o index.toNat sub.toNat value))

/-- How far a band edge of a certified entry lies from the path centre, in kHz (R97, R98): `k` is 0 or 1 for the passband,
2 or 3 for the stopband. The 200 MHz family passes ±95 MHz; a stopband edge lies outside its passband edge, and a delay-flat
variant's up to 10 % further out than that of its minimum delay variant. -/
def romEdgeKHz (id k : Nat) : Nat :=
  let pass := fun (j : Nat) => if romFamily id = 18 then 95000 else Config.romEdge (romBase id) j % 2 ^ 28
  if k < 2 then pass k
  else
    let base := pass (k - 2) + Config.romEdge (romBase id) k % 2 ^ 28
    if romFlat id = 1 then base + Config.romEdge id k % (base / 10 + 1) else base

/-- A field of the ROM catalogue for entry `id` (R98, R116). Lower edges lie below the path centre. -/
def romField (id sub : Nat) : Nat :=
  let wide : List Nat := [98304, 1229, 2458, 4915, 12288, 24576, 49152, 98304]
  let edge := fun (k : Nat) =>
    let f : Nat := if id < 8 then wide.getD id 0 else romEdgeKHz id k
    rawOf 32 (if k % 2 = 0 then -(f : Int) else f)
  match sub with
  | 1 => romRate id
  | 2 => romFamily id
  | 3 => romEdgeClass id
  | 4 => romMask id
  | 5 => romFlat id
  | 6 => romNSec id
  | 7 => edge 0
  | 8 => edge 1
  | 9 => if id < 8 then 0x80000000 else edge 2
  | 10 => if id < 8 then 0x80000000 else edge 3
  | 11 => romDelay id
  | 12 => romSettle id
  | 13 => romLResp id
  | _ => if id < 8 then 0 else Config.romReference id % 2 ^ 32

/-- The 16 bytes of section `k` of a ROM entry, from 1 (R116). -/
def romSectionBytes (id k : Nat) : List Byte :=
  match (romCoefs id)[k - 1]? with
  | none => leBytes 16 0
  | some f => [f.b0, f.b1, f.b2, f.a1, f.a2].flatMap (fun x => leBytes 3 (rawOf 24 x)) ++ d8 f.k

/-- What an entry reads where the core computes it on the service edge. -/
def Core.liveRead (c : Core) (i sub : Nat) : Option Nat :=
  let k := canon i
  match k.1, sub with
  | 0x1004, 0 => some c.summary
  | 0x1220, 0 => some c.clock
  | 0x2011, 6 | 0x2012, 6 => some (c.ent i 1 + c.ent i 2 * 2 ^ 16 + c.ent i 5 * 2 ^ 48)
  | 0x2901, 0 | 0x2902, 0 | 0x3005, 0 | 0x2A30, 0 | 0x6221, 0 | 0x5131, 0 | 0x5201, 0 | 0x5202, 0 => none
  | 0x2901, _ => some (romField (c.ent 0x2900 0) sub)
  | 0x2902, _ => some (ofLe (romSectionBytes (c.ent 0x2900 0) sub))
  | 0x3005, _ => some (ofLe (c.tapBlock (c.ent 0x3004 0) (sub - 1)))
  | 0x2A30, _ => (c.captureBlock k.2 (sub - 1)).map ofLe
  | 0x6221, _ => some (ofLe ((List.range 32).flatMap (fun j => leBytes 16 (c.hk.buffer.get (fun _ => 0) (32 * (sub - 1) + j)))))
  | 0x4000, 7 => some (let v := c.ent i 7; if bits (c.ent i 6) 15 12 = 3 then v % 2 ^ 15 + bits v 16 16 * 2 ^ 16 else v)
  | 0x5010, 3 => some (match c.twin.protectedSince with
      | some t => if c.isStandby && c.isPrimary && c.ent 0x5010 1 = 1 then (t + c.ent 0x5010 2 * second - c.now) / second else 0
      | none => 0)
  | 0x5103, 5 => some c.rootAge
  | 0x5131, _ => some (c.line.learned.filter (fun e => e.2.port = sub - 1)).length
  | 0x5200, 0 => some (ofLe serialNo)
  | 0x5201, 1 => some (min 768 Config.deviceCertificate.length)
  | 0x5201, _ => some (ofLe (padTo 768 Config.deviceCertificate))
  | 0x5202, 1 => some (min 992 Config.intermediateCertificate.length)
  | 0x5202, _ => some (ofLe (padTo 992 Config.intermediateCertificate))
  | 0x5203, 0 => some (ofLe publicKey)
  | 0x5204, 0 => some (ofLe (fingerprintOf publicKey))
  | 0x5233, 0 => some (c.ident.roster.get (fun _ => 0) (c.ent 0x5232 0))
  | 0x7010, 5 => some c.provingDue
  | _, _ => c.guardRead i sub

/-- Commands whose read has no listed result: an open value. -/
def openRead (i sub : Nat) : Bool :=
  [(0x1108, 0), (0x1115, 0), (0x1132, 0), (0x2886, 0), (0x2010, 3), (0x2A02, 0), (0x2019, 6), (0x3104, 1), (0x7000, 1),
   (0x6222, 0)].contains ((canon i).1, sub)

/-- The value an entry reads, as a number, and the state after an open value is drawn. DESIGN CHOICE (log 140): a slot's header
at 0x1113 and 0x1114 (R44) reads 64 zero bytes where the slot is erased. -/
def State.readEntry (s : State) (i sub : Nat) : Nat × State :=
  match i, sub with
  | 0x1113, 0 => (ofLe (padTo 64 s.nv.slotA), s)
  | 0x1114, 0 => (ofLe (padTo 64 s.nv.slotB), s)
  | _, _ =>
    if openRead i sub then let r := s.core.draw; (r.1, { s with core := r.2 })
    else match s.bookRead i sub with
      | some v => (v, s)
      | none => ((s.core.liveRead i sub).getD (s.core.ent i sub), s)

/-- Steps 6 to 11 of R309 for a read. A capture block is served in states 4 to 6 only (R132). -/
def Core.readCheck (c : Core) (o : Origin) (i sub : Nat) : Nat :=
  match rowOf i sub with
  | none => 0x0102
  | some r =>
    if !carries o.transport r (maxRead o.transport) then 0x0103
    else if isJoinEntry i then 0x0701
    else if (canon i).1 = 0x2A30 && sub ≠ 0 && c.capturing (canon i).2 then 0x0205
    else if (canon i).1 = 0x2A30 && sub ≠ 0 && c.ent (0x2A10 + (canon i).2) 9 = 0 then 0x0204
    else 0

/-- The flags of a read's response: a saturated counter, and a pending value that differs (R306). -/
def Core.readFlags (c : Core) (i sub v : Nat) : Nat :=
  let key := entKey i sub
  flagMask [(0, c.sticky.contains key), (2, match c.pend.find? key with | some w => decide (w ≠ v) | none => false)]

/-- Serves one read that the engine has taken (R307, R309). -/
def State.serveRead (s : State) (o : Origin) (i sub : Nat) : State :=
  let r := s.core.requestCheck o i sub
  let code := if r ≠ 0 then r else s.core.readCheck o i sub
  if code ≠ 0 then s.finish o 1 i sub code 0 []
  else
    let v := s.readEntry i sub
    let n := (rowOf i sub).map (fun r => r.ty.width) |>.getD 0
    v.2.finish o 1 i sub 0 (v.2.core.readFlags i sub v.1) (leBytes n v.1)

/-- What a request's bytes say of its origin (R305). -/
def originOf (t : Transport) (source role : Nat) (toPair broadcast : Bool) (req : List Byte) : Origin where
  transport := t
  source := BitVec.ofNat 16 source
  tag := BitVec.ofNat 16 (field req 2 2)
  role := BitVec.ofNat 2 role
  toPair := toPair
  broadcast := broadcast
  epoch := BitVec.ofNat 32 (field req 4 4)
  deadline := BitVec.ofNat 64 (field req 8 8)

/-- The largest request of a transport (R308). -/
def maxRequest : Transport → Nat
  | .line => 1008
  | .hspi => 4118
  | .twt => 248

/-- The records a request reads from the book, 0 where it reads none (R408). -/
def bookSpan (req : List Byte) : Nat :=
  if field req 0 1 ≠ 1 || field req 18 1 ≠ 0 then 0
  else if field req 16 2 = 0x6421 then 1 else if field req 16 2 = 0x6422 then 16 else 0

/-- Serves a request that the engine has taken, whole (R309). A broadcast read has no answer and no effect (R313). -/
def State.serveRequest (s : State) (o : Origin) (req : List Byte) : State :=
  let i := field req 16 2
  let sub := field req 18 1
  let op := field req 0 1
  if !wellFramed req (maxRequest o.transport) then s.finish o op i sub 0x0601 0 []
  else if op = 2 then s.serveTaken o i sub (req.drop 22) (entryAct o i sub (req.drop 22))
  else if o.broadcast then s
  else s.serveRead o i sub

/-- The request at the head of a transport's buffer that is ready for the engine, with its origin, and the state once it is
taken out: a local HSPI request is not ready while its answer lacks room (R15, R320). Codes as `Link.held`. -/
def State.headOf (s : State) (t : Nat) : Option (Origin × List Byte × State) :=
  match t with
  | 2 => match s.link.hspi with
    | none => none
    | some b =>
      let req := hspiBody b
      if s.hspiReady then
        some (originOf .hspi 0 (hspiRole b) (hspiDest b ≠ 0 && hspiDest b ≠ s.core.address) false req, req,
          { s with link := { s.link with hspi := none } })
      else none
  | 1 => match s.link.lineQueue with
    | [] => none
    | w :: r => some (originOf .line w.source w.role w.toPair w.broadcast w.bytes, w.bytes,
        { s with link := { s.link with lineQueue := r } })
  | _ =>
    if s.link.mailState = 1 then
      let req := if s.link.mailLength ≤ 248 then s.link.mail.take s.link.mailLength else []
      some (originOf .twt 0 0 false false req, req, s)
    else none

/-- The transport whose request the engine takes on this edge: the one a read holds, else HSPI, Line, TWT (R15). -/
def State.nextTransport (s : State) : Option Nat :=
  match s.link.held with
  | some (t, _) => some t
  | none => [2, 1, 3].find? (fun t => (s.headOf t).isSome)

/-- One management clock edge (R15): at most one request is served. A read of the book waits at most 100 µs for a unit that
writes a slot it covers (R408). A request for the Line that waited for room leaves as soon as there is some. -/
def State.edge (s : State) : State :=
  let s := match s.link.hspi with
    | some b => if !s.core.hspiLocal b && s.room 16 then ({ s with link := { s.link with hspi := none } }).sendLine b else s
    | none => s
  match if s.edgeFree then s.nextTransport else none with
  | none => s
  | some t =>
    match s.headOf t with
    | none => { s with link := { s.link with held := none } }
    | some (o, req, rest) =>
      let until_ := match s.link.held with | some (_, d) => d | none => s.core.now + 49152
      if bookSpan req ≠ 0 && s.readWaits (bookSpan req) && s.core.now < until_ then
        { s with link := { s.link with held := some (t, until_) } }
      else (({ rest with link := { rest.link with held := none } }).taken o).serveRequest o req

end Sys2Proof.Machine
end

