-- ==== Sys2Proof/Machine/Dispatch.lean ====
section
/-! DEFINITION. The dispatch: each command's arm calls its meaning. -/

namespace Sys2Proof.Machine

def exec (i : Instr) (s : State) : Host.Outcome State Fault Refusal :=
  match i with
  | .entryWrite o index sub value => Sys2Proof.Machine.execEntryWrite o index sub value s
  | .rfinWord n samples => Sys2Proof.Machine.execRfinWord n samples s
  | .captureComplete n => Sys2Proof.Machine.execCaptureComplete n s
  | .sampleRelease k => Sys2Proof.Machine.execSampleRelease k s
  | .settlingEnd p => Sys2Proof.Machine.execSettlingEnd p s
  | .pathGoLive p => Sys2Proof.Machine.execPathGoLive p s
  | .rampEnd p => Sys2Proof.Machine.execRampEnd p s
  | .converterPowerDown v => Sys2Proof.Machine.execConverterPowerDown v s
  | .converterCalibrated v => Sys2Proof.Machine.execConverterCalibrated v s
  | .modeRequest o v => Sys2Proof.Machine.execModeRequest o v s
  | .qualifiedRestart o v => Sys2Proof.Machine.execQualifiedRestart o v s
  | .powerOnReset => Sys2Proof.Machine.execPowerOnReset s
  | .resetNLow nanoseconds => Sys2Proof.Machine.execResetNLow nanoseconds s
  | .resetCommand o v => Sys2Proof.Machine.execResetCommand o v s
  | .twinResetHold => Sys2Proof.Machine.execTwinResetHold s
  | .resetRelease straps => Sys2Proof.Machine.execResetRelease straps s
  | .startLock => Sys2Proof.Machine.execStartLock s
  | .depotReady => Sys2Proof.Machine.execDepotReady s
  | .imageSave o v => Sys2Proof.Machine.execImageSave o v s
  | .imageSaveDone => Sys2Proof.Machine.execImageSaveDone s
  | .slotErase o v => Sys2Proof.Machine.execSlotErase o v s
  | .powerOnHour => Sys2Proof.Machine.execPowerOnHour s
  | .lockLoss => Sys2Proof.Machine.execLockLoss s
  | .relock => Sys2Proof.Machine.execRelock s
  | .loFrequencyWrite o l v => Sys2Proof.Machine.execLoFrequencyWrite o l v s
  | .loCalibration o l v => Sys2Proof.Machine.execLoCalibration o l v s
  | .loLock l => Sys2Proof.Machine.execLoLock l s
  | .loLockOverdue l => Sys2Proof.Machine.execLoLockOverdue l s
  | .loLockLoss l => Sys2Proof.Machine.execLoLockLoss l s
  | .sourceQualified src time => Sys2Proof.Machine.execSourceQualified src time s
  | .sourceLost src => Sys2Proof.Machine.execSourceLost src s
  | .timeHoldoverExpiry => Sys2Proof.Machine.execTimeHoldoverExpiry s
  | .timeSetAtPps o => Sys2Proof.Machine.execTimeSetAtPps o s
  | .timeSetNow o => Sys2Proof.Machine.execTimeSetNow o s
  | .timeSetTimeout => Sys2Proof.Machine.execTimeSetTimeout s
  | .ppsInEdge => Sys2Proof.Machine.execPpsInEdge s
  | .ppsInLost => Sys2Proof.Machine.execPpsInLost s
  | .ppsOutRise => Sys2Proof.Machine.execPpsOutRise s
  | .ppsOutFall => Sys2Proof.Machine.execPpsOutFall s
  | .reftuneUpdate => Sys2Proof.Machine.execReftuneUpdate s
  | .slackWindowEnd => Sys2Proof.Machine.execSlackWindowEnd s
  | .controlPeriodStart => Sys2Proof.Machine.execControlPeriodStart s
  | .outputPhase => Sys2Proof.Machine.execOutputPhase s
  | .muteWrite o p v => Sys2Proof.Machine.execMuteWrite o p v s
  | .synchronisingResetCommand o p v => Sys2Proof.Machine.execSynchronisingResetCommand o p v s
  | .romCheck good => Sys2Proof.Machine.execRomCheck good s
  | .expressWindowEnd p pt => Sys2Proof.Machine.execExpressWindowEnd p pt s
  | .stoppingIntervalEnd p pt => Sys2Proof.Machine.execStoppingIntervalEnd p pt s
  | .stoppingIntervalWrite o p v => Sys2Proof.Machine.execStoppingIntervalWrite o p v s
  | .compositeWindowEnd n => Sys2Proof.Machine.execCompositeWindowEnd n s
  | .maximaReset o p v => Sys2Proof.Machine.execMaximaReset o p v s
  | .compositeMaximaReset o v => Sys2Proof.Machine.execCompositeMaximaReset o v s
  | .lifetimeMinimumReset o v => Sys2Proof.Machine.execLifetimeMinimumReset o v s
  | .captureArm o n => Sys2Proof.Machine.execCaptureArm o n s
  | .captureAbort o n => Sys2Proof.Machine.execCaptureAbort o n s
  | .correlationWindowEnd p => Sys2Proof.Machine.execCorrelationWindowEnd p s
  | .tapFreeze o p => Sys2Proof.Machine.execTapFreeze o p s
  | .tapRelease o p => Sys2Proof.Machine.execTapRelease o p s
  | .tapReset o p v => Sys2Proof.Machine.execTapReset o p v s
  | .sweepStart o p => Sys2Proof.Machine.execSweepStart o p s
  | .sweepAbort o p => Sys2Proof.Machine.execSweepAbort o p s
  | .sweepPhaseEnd p => Sys2Proof.Machine.execSweepPhaseEnd p s
  | .sweepComplete p => Sys2Proof.Machine.execSweepComplete p s
  | .oscillationRetry p => Sys2Proof.Machine.execOscillationRetry p s
  | .retryBackoffRelease => Sys2Proof.Machine.execRetryBackoffRelease s
  | .overloadWindowEnd n => Sys2Proof.Machine.execOverloadWindowEnd n s
  | .overloadRelease n => Sys2Proof.Machine.execOverloadRelease n s
  | .oobCheck k m => Sys2Proof.Machine.execOobCheck k m s
  | .oobMuteLift p => Sys2Proof.Machine.execOobMuteLift p s
  | .unverifiedBackoff k p => Sys2Proof.Machine.execUnverifiedBackoff k p s
  | .reflectedMuteLift n => Sys2Proof.Machine.execReflectedMuteLift n s
  | .reflectedBackoffRelease n => Sys2Proof.Machine.execReflectedBackoffRelease n s
  | .reflectedStale n => Sys2Proof.Machine.execReflectedStale n s
  | .netstopAssert => Sys2Proof.Machine.execNetstopAssert s
  | .netstopRelease => Sys2Proof.Machine.execNetstopRelease s
  | .lineStopRelease o => Sys2Proof.Machine.execLineStopRelease o s
  | .lineStopStand o => Sys2Proof.Machine.execLineStopStand o s
  | .lineStopIsolate o => Sys2Proof.Machine.execLineStopIsolate o s
  | .periodStart => Sys2Proof.Machine.execPeriodStart s
  | .timetableEntry n => Sys2Proof.Machine.execTimetableEntry n s
  | .switchingEdge w assert => Sys2Proof.Machine.execSwitchingEdge w assert s
  | .syncBurstDetected b => Sys2Proof.Machine.execSyncBurstDetected b s
  | .syncBurstMissed => Sys2Proof.Machine.execSyncBurstMissed s
  | .frameHoldoverExpiry => Sys2Proof.Machine.execFrameHoldoverExpiry s
  | .pointsBurst k levelA levelB => Sys2Proof.Machine.execPointsBurst k levelA levelB s
  | .pointsChange k => Sys2Proof.Machine.execPointsChange k s
  | .coexRequest k => Sys2Proof.Machine.execCoexRequest k s
  | .coexGrant k => Sys2Proof.Machine.execCoexGrant k s
  | .coexRelease k => Sys2Proof.Machine.execCoexRelease k s
  | .coexResume k => Sys2Proof.Machine.execCoexResume k s
  | .coexGrantOverdue k => Sys2Proof.Machine.execCoexGrantOverdue k s
  | .pwmPeriod a => Sys2Proof.Machine.execPwmPeriod a s
  | .encoderEdge a levelA levelB => Sys2Proof.Machine.execEncoderEdge a levelA levelB s
  | .encoderIndex a => Sys2Proof.Machine.execEncoderIndex a s
  | .encoderStall a => Sys2Proof.Machine.execEncoderStall a s
  | .faultClear o a v => Sys2Proof.Machine.execFaultClear o a v s
  | .twinPartnerTimeout => Sys2Proof.Machine.execTwinPartnerTimeout s
  | .tokenLost => Sys2Proof.Machine.execTokenLost s
  | .tokenReturn => Sys2Proof.Machine.execTokenReturn s
  | .tokenWireFault => Sys2Proof.Machine.execTokenWireFault s
  | .preemptRise => Sys2Proof.Machine.execPreemptRise s
  | .preemptWindowEnd => Sys2Proof.Machine.execPreemptWindowEnd s
  | .strapConflictReclaim => Sys2Proof.Machine.execStrapConflictReclaim s
  | .swapCommand o v => Sys2Proof.Machine.execSwapCommand o v s
  | .swapStart => Sys2Proof.Machine.execSwapStart s
  | .swapDriverHandover => Sys2Proof.Machine.execSwapDriverHandover s
  | .swapClaim => Sys2Proof.Machine.execSwapClaim s
  | .swapAbort => Sys2Proof.Machine.execSwapAbort s
  | .twinFrameSend => Sys2Proof.Machine.execTwinFrameSend s
  | .twinFrameReceive frame => Sys2Proof.Machine.execTwinFrameReceive frame s
  | .twinStreamBreak => Sys2Proof.Machine.execTwinStreamBreak s
  | .joinStart => Sys2Proof.Machine.execJoinStart s
  | .joinCommand o => Sys2Proof.Machine.execJoinCommand o s
  | .twinWithdraw o => Sys2Proof.Machine.execTwinWithdraw o s
  | .reintegrationStepDone => Sys2Proof.Machine.execReintegrationStepDone s
  | .reintegrationComplete => Sys2Proof.Machine.execReintegrationComplete s
  | .reintegrationAbandon => Sys2Proof.Machine.execReintegrationAbandon s
  | .reintegrationBackoffEase => Sys2Proof.Machine.execReintegrationBackoffEase s
  | .takeBack => Sys2Proof.Machine.execTakeBack s
  | .provingSwapDue => Sys2Proof.Machine.execProvingSwapDue s
  | .proveNow o v => Sys2Proof.Machine.execProveNow o v s
  | .provingDwellEnd => Sys2Proof.Machine.execProvingDwellEnd s
  | .selfTestReceive o => Sys2Proof.Machine.execSelfTestReceive o s
  | .selfTestLink o => Sys2Proof.Machine.execSelfTestLink o s
  | .selfTestDone passed => Sys2Proof.Machine.execSelfTestDone passed s
  | .laneLock q => Sys2Proof.Machine.execLaneLock q s
  | .blockLockLoss q => Sys2Proof.Machine.execBlockLockLoss q s
  | .lineFrameSend q => Sys2Proof.Machine.execLineFrameSend q s
  | .lineFrameReceive q frame => Sys2Proof.Machine.execLineFrameReceive q frame s
  | .fecMismatch q => Sys2Proof.Machine.execFecMismatch q s
  | .managementPacket q packet => Sys2Proof.Machine.execManagementPacket q packet s
  | .addressLapse address => Sys2Proof.Machine.execAddressLapse address s
  | .ringProbe => Sys2Proof.Machine.execRingProbe s
  | .ringProbeReturn returned => Sys2Proof.Machine.execRingProbeReturn returned s
  | .joinRequestSend => Sys2Proof.Machine.execJoinRequestSend s
  | .joinRequest value => Sys2Proof.Machine.execJoinRequest value s
  | .joinChallenge value => Sys2Proof.Machine.execJoinChallenge value s
  | .joinAnswer value => Sys2Proof.Machine.execJoinAnswer value s
  | .joinDecision value => Sys2Proof.Machine.execJoinDecision value s
  | .joinDecisionTimeout => Sys2Proof.Machine.execJoinDecisionTimeout s
  | .joinRetry => Sys2Proof.Machine.execJoinRetry s
  | .pendingAccept o address fingerprint => Sys2Proof.Machine.execPendingAccept o address fingerprint s
  | .pendingReject o address fingerprint => Sys2Proof.Machine.execPendingReject o address fingerprint s
  | .rosterWrite o entry => Sys2Proof.Machine.execRosterWrite o entry s
  | .hspiRequest bytes => Sys2Proof.Machine.execHspiRequest bytes s
  | .hspiResponse => Sys2Proof.Machine.execHspiResponse s
  | .hspiStatus => Sys2Proof.Machine.execHspiStatus s
  | .doorbellSubmit => Sys2Proof.Machine.execDoorbellSubmit s
  | .doorbellRelease => Sys2Proof.Machine.execDoorbellRelease s
  | .lineResponse source body => Sys2Proof.Machine.execLineResponse source body s
  | .transactionTimeout tag => Sys2Proof.Machine.execTransactionTimeout tag s
  | .tagQuarantineEnd tag => Sys2Proof.Machine.execTagQuarantineEnd tag s
  | .commit o => Sys2Proof.Machine.execCommit o s
  | .discard o => Sys2Proof.Machine.execDiscard o s
  | .pendingSetLapse => Sys2Proof.Machine.execPendingSetLapse s
  | .commitActivation => Sys2Proof.Machine.execCommitActivation s
  | .counterClear o v => Sys2Proof.Machine.execCounterClear o v s
  | .irqClear o v => Sys2Proof.Machine.execIrqClear o v s
  | .attestation o nonce => Sys2Proof.Machine.execAttestation o nonce s
  | .signatureDone => Sys2Proof.Machine.execSignatureDone s
  | .thermalReading r => Sys2Proof.Machine.execThermalReading r s
  | .ladderAdvance => Sys2Proof.Machine.execLadderAdvance s
  | .ladderRetreat => Sys2Proof.Machine.execLadderRetreat s
  | .sagDecision rail millivolts => Sys2Proof.Machine.execSagDecision rail millivolts s
  | .brownOut rail => Sys2Proof.Machine.execBrownOut rail s
  | .saveComplete => Sys2Proof.Machine.execSaveComplete s
  | .sagRecovery => Sys2Proof.Machine.execSagRecovery s
  | .holdupReading millivolts => Sys2Proof.Machine.execHoldupReading millivolts s
  | .fieldSupplyLost millivolts => Sys2Proof.Machine.execFieldSupplyLost millivolts s
  | .fieldSupplyRestored millivolts => Sys2Proof.Machine.execFieldSupplyRestored millivolts s
  | .nvUnitComplete => Sys2Proof.Machine.execNvUnitComplete s
  | .bookFreeze o => Sys2Proof.Machine.execBookFreeze o s
  | .bookRelease o => Sys2Proof.Machine.execBookRelease o s
  | .bookFreezeExpiry => Sys2Proof.Machine.execBookFreezeExpiry s
  | .bookExport o => Sys2Proof.Machine.execBookExport o s
  | .exportSigned => Sys2Proof.Machine.execExportSigned s
  | .hkTrigger q => Sys2Proof.Machine.execHkTrigger q s
  | .hkTriggerCommand o q v => Sys2Proof.Machine.execHkTriggerCommand o q v s
  | .hkConversion microvolts => Sys2Proof.Machine.execHkConversion microvolts s
  | .hkRunComplete => Sys2Proof.Machine.execHkRunComplete s
  | .hkUrgentRequest o channel => Sys2Proof.Machine.execHkUrgentRequest o channel s
  | .hkMark o v => Sys2Proof.Machine.execHkMark o v s
  | .twBusCheck c scl sda => Sys2Proof.Machine.execTwBusCheck c scl sda s
  | .twTransferCommand o c v => Sys2Proof.Machine.execTwTransferCommand o c v s
  | .twTransferDone c r => Sys2Proof.Machine.execTwTransferDone c r s
  | .sclTimeout c sda => Sys2Proof.Machine.execSclTimeout c sda s
  | .nineClockRecovery c clocks sdaHigh => Sys2Proof.Machine.execNineClockRecovery c clocks sdaHigh s
  | .sdaStuckRetry c clocks sdaHigh => Sys2Proof.Machine.execSdaStuckRetry c clocks sdaHigh s
  | .twResetCommand o c v => Sys2Proof.Machine.execTwResetCommand o c v s
  | .twResetDone c => Sys2Proof.Machine.execTwResetDone c s
  | .twtWriteByte first b => Sys2Proof.Machine.execTwtWriteByte first b s
  | .twtReadByte first => Sys2Proof.Machine.execTwtReadByte first s
  | .twtBrokenTransfer k => Sys2Proof.Machine.execTwtBrokenTransfer k s
  | .twtTimeout => Sys2Proof.Machine.execTwtTimeout s
  | .jtagReset => Sys2Proof.Machine.execJtagReset s
  | .extest => Sys2Proof.Machine.execExtest s
  | .idcode => Sys2Proof.Machine.execIdcode s
  | .samplePreload => Sys2Proof.Machine.execSamplePreload s
  | .clamp => Sys2Proof.Machine.execClamp s
  | .highz => Sys2Proof.Machine.execHighz s
  | .bypass => Sys2Proof.Machine.execBypass s
  | .lineFrameMissing q => Sys2Proof.Machine.execLineFrameMissing q s
  | .vholdRunsOut => Sys2Proof.Machine.execVholdRunsOut s
  | .sclRise c sda => Sys2Proof.Machine.execSclRise c sda s

end Sys2Proof.Machine
end

