-- ==== Sys2Proof/Machine/Tick.lean ====
section
/-! DEFINITION. One station tick: what the part does by itself while no command waits. The time-driven rows of the table are
commands; what happens here has no row of its own. -/

namespace Sys2Proof.Machine

/-- LIVE writes of a pair whose effect tick has come, in the order of their acceptance (R260). -/
def Core.laterTick (c : Core) : Core :=
  let due := c.later.filter (fun e => decide (e.1 ≤ c.clock))
  due.foldl (fun (c : Core) (e : Nat × Nat × Nat) => c.applyLive (e.2.1 / 256) (e.2.1 % 256) e.2.2)
    { c with later := c.later.filter (fun e => decide (c.clock < e.1)) }

/-- The seconds that have ended (R399): a record with its count where the second is counted. -/
def Core.secondsTick (c : Core) : Core :=
  let due := c.seconds.filter (fun w => decide (w.ends ≤ c.now))
  if due.isEmpty then c
  else
    let c1 := { c with seconds := c.seconds.filter (fun w => decide (c.now < w.ends)) }
    let c2 := due.foldl (fun (c : Core) (w : Second) =>
      if w.counted then c.emit w.source w.code (w.head ++ d32 w.count) else c) c1
    if due.any (fun w => w.source = 37) then c2.refreshBox else c2

/-- The paths that still compute with replaced values stop doing so once no sample born before the activation tick can
come (R14). -/
def Core.beforeTick (c : Core) : Core :=
  let old := allPaths.filter (fun p => match (c.path p).before with | some (t, _) => decide (t + 32768 ≤ c.clock) | none => false)
  c.each old Core.dropBefore

/-- The self-timed fabric takes some of the words that wait (R19). -/
def Core.fabricTick (c : Core) : Core :=
  let waiting := (List.range 8).filter (fun n => !(c.rfin n).buffer.isEmpty)
  c.each waiting Core.drain

/-- What the core does in a tick once DEPOT ready was reached. -/
def Core.readyTick (c : Core) : Core :=
  let c1 := c.laterTick.secondsTick.frontEndTick
  let c2 := c1.each [0, 1, 2, 3] Core.twServe
  c2.twinTick.fabricTick.deliverStreams.beforeTick

/-- A reset that a save holds comes after 10 ms at the latest (R359). -/
def State.heldTick (s : State) : State :=
  match s.core.supply.heldReset with
  | some (cause, since) =>
    if since + 10 * ms ≤ s.core.now then s.doReset cause (some (cause, s.core.now - since)) else s
  | none => s

/-- Time goes on by one tick. -/
def Core.advance (c : Core) : Core :=
  { c with now := c.now + 1, clock := if c.ticking then (c.clock + 1) % 2 ^ 64 else c.clock }

/-- One tick: an edge of the management clock on every fourth (R15), the core's own work, resets that waited, the collector
(R401), the NV write engine (R25). Then time advances. -/
def State.tick (s : State) : State :=
  let ready := s.core.phase = .ready
  let s1 := if ready && s.core.clock % 4 = 0 then s.edge else s
  let s2 := if ready then s1.onCore Core.readyTick else s1
  let s3 := (s2.drained.heldTick.collect).kick
  s3.onCore Core.advance

end Sys2Proof.Machine
end

