-- ==== Sys2Proof/Machine/Footprint.lean ====
section
/-! DEFINITION. The terms of the statements: the entries an operation may move, what a state keeps of another, a record
presented, and a write that the dictionary engine takes. -/

namespace Sys2Proof.Machine

/-- The command answers a next state of which `q` holds. -/
def Ends (i : Instr) (s : State) (q : State → Prop) : Prop := ∃ t, exec i s = .next t ∧ q t

/-- Everything beside the core: the book, the non-volatile memory, the transports, the boundary scan and the queue. -/
def Beside (s t : State) : Prop :=
  t.book = s.book ∧ t.nv = s.nv ∧ t.link = s.link ∧ t.jtag = s.jtag ∧ t.pending = s.pending

/-- As `Beside`, for a write whose response its transport then holds. -/
def BesideLink (s t : State) : Prop := t.book = s.book ∧ t.nv = s.nv ∧ t.jtag = s.jtag ∧ t.pending = s.pending

/-- Every entry whose key lies outside `F` is as before. -/
def Untouched (F : Nat → Prop) (s t : State) : Prop :=
  ∀ i sub, ¬ F (entKey i sub) → t.core.ent i sub = s.core.ent i sub

/-- A record presented to the collector beside those that waited before, stamped with the station clock. -/
def Presents (s t : State) (source code : Nat) (data : List Byte) : Prop :=
  ∃ l, t.core.presented = s.core.presented ++ l ∧
    ∃ e ∈ l, e.source = source ∧ e.code = code ∧ e.data = padTo 12 data ∧ e.stamp = s.core.clock

/-- A write that the engine can take and that passes steps 1 to 10 of R309. -/
def Accepts (s : State) (o : Origin) (i sub : Nat) (v : List Byte) : Prop :=
  s.canServe o 0 = true ∧ (s.core.touchOwner o).writeCheck o i sub v = 0

/-- The entries a served request counts on, and those its response may move (R321, R326). -/
def footReply (k : Nat) : Prop :=
  k = entKey 0x1133 1 ∨ k = entKey 0x1133 2 ∨ k = entKey 0x1133 5 ∨ k = entKey 0x1134 0 ∨ k = entKey 0x5130 1

/-- A moment of the part's own that leaves everything beside the core, and every entry outside `F`, as it was. -/
def Moves (F : Nat → Prop) (s t : State) : Prop := Beside s t ∧ Untouched F s t

/-- A served write that leaves the book, the non-volatile memory, the boundary scan and the queue as they were, and every
entry outside `F` and what counts and answers the request. -/
def Writes (F : Nat → Prop) (s t : State) : Prop := BesideLink s t ∧ Untouched (fun k => footReply k ∨ F k) s t

/-- A write that the engine turns away: the abort code is counted and sent back, and nothing else happens (R309). -/
def Refuses (s t : State) (o : Origin) (i sub code : Nat) : Prop :=
  t = (s.taken o).finish o 2 i sub code 0 []

/-- The keys of path blocks whose offset and subindex stand in `l`, as offset × 256 + subindex. -/
def onPaths (l : List Nat) (k : Nat) : Prop := 0x200000 ≤ k ∧ k < 0x280000 ∧ k % 0x4000 ∈ l

/-- What a change of mute state may move: P+0x01.01, P+0x01.02, P+0x20.04, P+0x19.07 and 0x110A. -/
def footPath (p k : Nat) : Prop :=
  k = entKey (pIdx p 1) 1 ∨ k = entKey (pIdx p 1) 2 ∨ k = entKey (pIdx p 0x20) 4 ∨ k = entKey (pIdx p 0x19) 7 ∨
    k = entKey 0x110A 0

/-- What the end of a sweep may move. -/
def footSweep (p k : Nat) : Prop := k = entKey (pIdx p 0x1C) 1 ∨ k = entKey (pIdx p 0x19) 7

/-- What a Guard decision on one path may move. -/
def footGuard (p k : Nat) : Prop :=
  footPath p k ∨ footSweep p k ∨ k = entKey (pIdx p 0x24) 1 ∨ k = entKey (pIdx p 0x24) 2 ∨ k = entKey (pIdx p 0x24) 3 ∨
    k = entKey (pIdx p 2) 4 ∨ k = entKey (pIdx p 2) 5 ∨ k = entKey 0x1134 0 ∨ k = entKey 0x3180 5

/-- What a change of mode may move. -/
def footMode (k : Nat) : Prop :=
  onPaths [0x101, 0x102, 0x2004, 0x1907, 0x1C01] k ∨ k = entKey 0x110A 0 ∨ k = entKey 0x1100 0 ∨ k = entKey 0x1102 0 ∨
    k = entKey 0x1109 0 ∨ k = entKey 0x1134 0 ∨ (entKey 0x2803 1 ≤ k ∧ k ≤ entKey 0x2803 8) ∨
    (entKey 0x2804 1 ≤ k ∧ k ≤ entKey 0x2804 8)

/-- What a node-wide Guard action may move. -/
def footNode (k : Nat) : Prop :=
  footMode k ∨ k = entKey 0x1103 2 ∨ k = entKey 0x1103 3 ∨ k = entKey 0x3180 5 ∨ k = entKey 0x3100 0 ∨ k = entKey 0x3101 0

/-- What a change of a Points pair's state may move: the pairs' states and the status bits of 0x3200 (R201). -/
def footPoints (k : Nat) : Prop := k = entKey 0x3250 8 ∨ k = entKey 0x3251 8 ∨ k = entKey 0x3200 0

/-- What a synchronising reset of a path may move (R105). -/
def footReset (p k : Nat) : Prop :=
  footPath p k ∨ k = entKey (pIdx p 9) 1 ∨ k = entKey (pIdx p 9) 3 ∨ k = entKey (pIdx p 9) 4

/-- What the Guard's work on a path's Express window may move (R161 to R166). -/
def footExpress (p k : Nat) : Prop :=
  footGuard p k ∨ footNode k ∨ (entKey (pIdx p 0x20) 1 ≤ k ∧ k ≤ entKey (pIdx p 0x21) 7) ∨ k = entKey 0x3102 0 ∨
    (entKey 0x3180 0 ≤ k ∧ k < entKey 0x3181 0)

/-- What a step of a path's noise backoff may move (R165). -/
def footNoise (p k : Nat) : Prop := footGuard p k ∨ k = entKey (pIdx p 0x22) 4 ∨ k = entKey (pIdx p 0x22) 5

/-- What the fabric's work may move: path blocks, captures, the Guard's node entries, the mode and what follows from it, and
the counts of late samples. -/
def footFabric (k : Nat) : Prop :=
  (entKey 0x2000 0 ≤ k ∧ k < entKey 0x2800 0) ∨ footNode k ∨ (entKey 0x2A10 0 ≤ k ∧ k < entKey 0x2A14 0) ∨
    k = entKey 0x3102 0 ∨ (entKey 0x3180 0 ≤ k ∧ k < entKey 0x3181 0) ∨
    (entKey 0x2882 0 ≤ k ∧ k < entKey 0x2884 0)

/-- What a change of the frame timing state may move (R193). -/
def footFrame (k : Nat) : Prop := footMode k ∨ onPaths [0x2802] k ∨ k = entKey 0x3200 0 ∨ k = entKey 0x3202 0

/-- What a change of the time status may move (R53). -/
def footTime (k : Nat) : Prop := footFrame k ∨ k = entKey 0x1221 0 ∨ k = entKey 0x1222 0

/-- What a change of role, pair state or token may move (R245 to R249). -/
def footTwin (k : Nat) : Prop :=
  k = entKey 0x5000 0 ∨ k = entKey 0x5001 0 ∨ k = entKey 0x5002 0 ∨ k = entKey 0x5003 0 ∨ k = entKey 0x5008 0 ∨
    k = entKey 0x5040 2

/-- What the collector and the book's freeze may move (R404, R405, R409). -/
def footBook (k : Nat) : Prop :=
  k = entKey 0x6400 0 ∨ k = entKey 0x6405 0 ∨ k = entKey 0x6410 0 ∨ k = entKey 0x1103 1 ∨ k = entKey 0x3180 7

/-- What the two-wire channels' queues and states may move (R388 to R391). -/
def footTwoWire (k : Nat) : Prop := entKey 0x6310 0 ≤ k ∧ k < entKey 0x6324 0

/-- What a move of the thermal ladder may move (R344 to R346). -/
def footLadder (k : Nat) : Prop :=
  footMode k ∨ footTwin k ∨ (entKey 0x2A10 0 ≤ k ∧ k < entKey 0x2A14 0) ∨
    onPaths [0x901, 0x903, 0x904, 0x1301, 0x1302, 0x1303, 0x1304, 0x1305, 0x1401, 0x1402, 0x1403, 0x1404, 0x1405, 0x1A0A] k ∨
    k = entKey 0x2A04 0 ∨ k = entKey 0x3003 0 ∨ k = entKey 0x6004 0 ∨ k = entKey 0x6005 0 ∨
    (entKey 0x3180 0 ≤ k ∧ k < entKey 0x3181 0)

/-- What a change of the supplies' state may move (R355 to R360). -/
def footSupply (k : Nat) : Prop :=
  footMode k ∨ footTwin k ∨ k = entKey 0x6100 0 ∨ (entKey 0x6101 0 ≤ k ∧ k < entKey 0x6103 0) ∨ k = entKey 0x6106 0 ∨
    (entKey 0x6110 1 ≤ k ∧ k ≤ entKey 0x6110 6) ∨ k = entKey 0x3180 2

/-- What a step of the station clock may move (R55): windows in progress end, and the counters 0x1228 and 0x1243. -/
def footStep (k : Nat) : Prop := footFabric k ∨ k = entKey 0x1228 0 ∨ k = entKey 0x1243 0

/-- What a change of an LO's state may move (R48 to R51): its entries, and what follows on the paths bound to it. -/
def footLo (l k : Nat) : Prop :=
  footMode k ∨ onPaths [0x105, 0x106, 0x107, 0x108, 0x901, 0x2902] k ∨
    (entKey (0x1210 + l) 3 ≤ k ∧ k ≤ entKey (0x1210 + l) 8)

/-- The states of the housekeeping sequences and their summary (R373). -/
def footHk (k : Nat) : Prop := k = entKey 0x6200 0 ∨ ∃ q, q < 4 ∧ k = entKey (0x6210 + q) 5

/-- The levels and the clipped edges of the front-end control outputs (R186, R187). -/
def footFec (k : Nat) : Prop := ∃ n, n < 32 ∧ (k = entKey (0x3220 + n) 7 ∨ k = entKey (0x3220 + n) 8)

/-- The status entries of the Signal Box's slots and of the engine (R227, R240). -/
def footSlots (k : Nat) : Prop :=
  (∃ s j, s < 96 ∧ j < 256 ∧ (k = entKey (sIdx s 4) j ∨ k = entKey (sIdx s 5) j)) ∨ k = entKey 0x4380 0 ∨
    k = entKey 0x4384 0 ∨ k = entKey 0x4385 0

/-- What a change of admission state may move (R295, R335). -/
def footAdmission (k : Nat) : Prop :=
  footMode k ∨ k = entKey 0x5102 0 ∨ k = entKey 0x5100 0 ∨ k = entKey 0x1101 0

/-- What a terminus's decision on a join may move (R332 to R335): its packet, the roster's count and the pending joins. -/
def footJoins (k : Nat) : Prop :=
  k = entKey 0x5130 1 ∨ k = entKey 0x5234 0 ∨ (entKey 0x5236 1 ≤ k ∧ k ≤ entKey 0x5236 16)

/-- Whether an entry is STAGED: a commit alone changes it (R315). -/
def stagedKey (k : Nat) : Bool := (rowOf (k / 256) (k % 256)).any (fun r => r.staged)

/-- The part as a full reset of a cause leaves it (R36): held, its clock stopped, every entry but the reset cause at its
default, the latch, the link and the boundary of the book cleared. -/
def AtReset (cause : Nat) (s t : State) : Prop :=
  t.core.phase = .held ∧ t.core.ticking = false ∧ t.core.latched = false ∧ t.core.now = s.core.now ∧
    t.core.ent 0x1105 0 = cause ∧ (∀ i sub, entKey i sub ≠ entKey 0x1105 0 → t.core.ent i sub = entryDefault (entKey i sub)) ∧
    t.book.opened = false ∧ t.book.queue = [] ∧ t.link = Link.init ∧ t.nv.job = none ∧ t.pending = s.pending

end Sys2Proof.Machine
end

