-- ==== Sys2Proof/Safety.lean ====
section
/-! DEFINITION. What counts as a safe run: the step answers a next state, and the Occurrence Book and the non-volatile memory
stay sound. -/

namespace Sys2Proof.Machine

/-- A state from which the next step is not a stop. -/
def State.Proceeds (s : State) : Prop := ∃ t, step s = .next t

/-- The collector's queue holds at most 512 records, and their sequences run in turn up to the next one (R401, R403). -/
def State.BookSound (s : State) : Prop :=
  s.book.queue.length ≤ queueMax ∧ s.book.next < 65536 ∧
    ∀ k r, s.book.queue[k]? = some r → r.seq = (s.book.next + 65536 - (s.book.queue.length - k)) % 65536

/-- The tables of the non-volatile memory are in canonical form, and the book's region has 32,768 slots (R24, R403). -/
def State.NvSound (s : State) : Prop :=
  s.nv.records.wf (fun _ => 0) ∧ (∀ e ∈ s.nv.records, e.1 < 32768) ∧ s.nv.persistent.wf (fun _ => 0) ∧
    s.nv.roster.wf (fun _ => 0) ∧ s.nv.saves.wf (fun _ => 0) ∧ s.nv.sweeps.wf (fun _ => none)

end Sys2Proof.Machine
end

