-- ==== Sys2Proof/Certificates/Slice0/Obligations.lean ====
section
/-! DEFINITION. The statements for the provers. -/

open Sys2Proof Sys2Proof.Machine

/-- A step runs the command at the front of the queue, with the rest of the queue (the model's form of a step). The model's
own choice: log entry 1. -/
def Obligations.StepRunsFrontCommand : Prop :=
  ∀ (c : Instr) (r : List Instr) (s : State), s.pending = c :: r → step s = exec c { s with pending := r }

/-- MUTE_WRITE, MAXIMA_RESET, COMPOSITE_MAXIMA_RESET and LIFETIME_MINIMUM_RESET, taken and passing R309: the values they
write, and no entry beside those named (R83, R121, R125, R62). A LIVE write accepted by the ACTIVE chip of a pair that is
PROTECTED or JOINING waits for its effect tick, the first multiple of 256 ticks at least 1,024 ticks later: until then no entry
moves (R260); MUTE_WRITE, STOPPING_INTERVAL_WRITE and LO_FREQUENCY_WRITE. -/
def Obligations.MuteAndMaximaWrites : Prop :=
  ((∀ (o : Origin) (p : Fin 32) (v : Byte) (s : State), Accepts s o (pIdx p 3) 0 (d8 v.toNat) → s.core.shared = false →
      Ends (.muteWrite o p v) s (fun t => t.core.ent (pIdx p 3) 0 = v.toNat ∧
        Writes (fun k => footPath p k ∨ k = entKey (pIdx p 3) 0) s t)) ∧
    (∀ (o : Origin) (p : Fin 32) (s : State), Accepts s o (pIdx p 0x10) 3 (d8 1) →
      Ends (.maximaReset o p 1) s (fun t => t.core.ent (pIdx p 0x11) 3 = noCdb ∧ t.core.ent (pIdx p 0x12) 3 = noCdb ∧
        Writes (fun k => k = entKey (pIdx p 0x11) 3 ∨ k = entKey (pIdx p 0x12) 3) s t)) ∧
    (∀ (o : Origin) (s : State), Accepts s o 0x2A02 0 (d8 1) →
      Ends (.compositeMaximaReset o 1) s (fun t => (∀ n, n < 8 → t.core.ent 0x2A01 (n + 1) = noCdb) ∧
        Writes (fun k => entKey 0x2A01 1 ≤ k ∧ k ≤ entKey 0x2A01 8) s t)) ∧
    (∀ (o : Origin) (s : State), Accepts s o 0x2886 0 (d8 1) →
      Ends (.lifetimeMinimumReset o 1) s (fun t => (∀ p, p < 32 → t.core.ent 0x2881 (p + 1) = 0x8000) ∧
        Writes (fun k => entKey 0x2881 1 ≤ k ∧ k ≤ entKey 0x2881 32) s t))) ∧
  (∀ (o : Origin) (s : State), s.core.shared = true →
      (∀ (p : Fin 32) (v : Byte), Accepts s o (pIdx p 3) 0 (d8 v.toNat) →
        Ends (.muteWrite o p v) s (fun t => Writes (fun _ => False) s t ∧
          t.core.later = s.core.later ++ [(ceilMul 256 (s.core.clock + 1024), entKey (pIdx p 3) 0, v.toNat)])) ∧
      (∀ (p : Fin 32) (v : Half), Accepts s o (pIdx p 0x10) 1 (d16 v.toNat) →
        Ends (.stoppingIntervalWrite o p v) s (fun t => Writes (fun _ => False) s t ∧
          t.core.later = s.core.later ++ [(ceilMul 256 (s.core.clock + 1024), entKey (pIdx p 0x10) 1, v.toNat)])) ∧
      (∀ (l : Fin 2) (v : Word), Accepts s o (0x1210 + l) 1 (d32 v.toNat) →
        Ends (.loFrequencyWrite o l v) s (fun t => Writes (fun _ => False) s t ∧
          t.core.later = s.core.later ++ [(ceilMul 256 (s.core.clock + 1024), entKey (0x1210 + l) 1, v.toNat)])))

/-- STOPPING_INTERVAL_WRITE changes nothing where the length is the one in force, and otherwise sets it and abandons the
interval in progress (R122). SYNCHRONISING_RESET_COMMAND on a path that is configured and not live orders a reset of cause 5
at the first multiple of 128 ticks after the write; on a live path it is refused and changes nothing (R105), and on a path
that is not configured it is taken and orders nothing. The model's own choices: log entries 18, 134. -/
def Obligations.StoppingAndResetWrites : Prop :=
  (∀ (o : Origin) (p : Fin 32) (v : Half) (s : State), Accepts s o (pIdx p 0x10) 1 (d16 v.toNat) → s.core.shared = false →
    Ends (.stoppingIntervalWrite o p v) s (fun t => t.core.ent (pIdx p 0x10) 1 = v.toNat ∧
      (s.core.ent (pIdx p 0x10) 1 = v.toNat → Writes (fun _ => False) s t) ∧
      (s.core.ent (pIdx p 0x10) 1 ≠ v.toNat → (t.core.path p).stLen = v.toNat ∧
        (t.core.path p).stIn.window = none ∧ (t.core.path p).stOut.window = none ∧
        Writes (fun k => onPaths [0x1001, 0x1301, 0x1302, 0x1303, 0x1304, 0x1305, 0x1401, 0x1402, 0x1403, 0x1404, 0x1405] k) s t))) ∧
  (∀ (o : Origin) (p : Fin 32) (s : State), Accepts s o (pIdx p 9) 5 (d8 1) →
    Ends (.synchronisingResetCommand o p 1) s (fun t =>
      (s.core.entBit 0x110A 0 p = true → Writes (fun _ => False) s t) ∧
      (s.core.entBit 0x110A 0 p = false → s.core.cfg.configured p = false → Writes (fun _ => False) s t) ∧
      (s.core.entBit 0x110A 0 p = false → s.core.cfg.configured p = true →
        (t.core.path p).resets = (s.core.path p).resets ++ [((s.core.clock / 128 + 1) * 128, 5)] ∧
        t.core.ent (pIdx p 9) 5 = 1 ∧ t.core.ent (pIdx p 9) 4 = 5 ∧
        t.core.ent (pIdx p 9) 3 = min (s.core.ent (pIdx p 9) 3 + 1) 0xFFFFFFFF ∧
        Presents s t (2 + p) 0x0403 (d8 5) ∧
        Writes (fun k => footReset p k ∨ k = entKey (pIdx p 9) 5) s t)))

/-- CAPTURE_ARM starts a capture that can run, in state 2 where nothing is stored before the trigger and in state 1
otherwise, and leaves the reason it refuses; CAPTURE_ABORT ends a capture in state 5 (R130). CAPTURE_COMPLETE ends one in
state 4 with record 0x0502. -/
def Obligations.CaptureStates : Prop :=
  (∀ (o : Origin) (n : Fin 4) (s : State), Accepts s o (0x2A10 + n) 8 (d8 1) →
    Ends (.captureArm o n) s (fun t =>
      (s.core.capturing n = true → t.core.ent (0x2A10 + n) 8 = 1 ∧ Writes (fun k => k = entKey (0x2A10 + n) 8) s t) ∧
      (s.core.capturing n = false → s.core.entBit 0x2A04 0 1 = true →
        t.core.ent (0x2A10 + n) 8 = 3 ∧ Writes (fun k => k = entKey (0x2A10 + n) 8) s t) ∧
      (s.core.capturing n = false → s.core.entBit 0x2A04 0 1 = false → s.core.pointUsable n = false →
        t.core.ent (0x2A10 + n) 8 = 2 ∧ Writes (fun k => k = entKey (0x2A10 + n) 8) s t) ∧
      (s.core.capturing n = false → s.core.entBit 0x2A04 0 1 = false → s.core.pointUsable n = true →
        t.core.ent (0x2A10 + n) 8 = 0 ∧ t.core.ent (0x2A10 + n) 9 = (if s.core.ent (0x2A10 + n) 7 = 0 then 2 else 1) ∧
        (t.core.capture n).stored = [] ∧ Writes (fun k => k = entKey (0x2A10 + n) 8 ∨ k = entKey (0x2A10 + n) 9) s t))) ∧
  (∀ (o : Origin) (n : Fin 4) (s : State), Accepts s o (0x2A10 + n) 8 (d8 2) →
    Ends (.captureAbort o n) s (fun t => t.core.ent (0x2A10 + n) 8 = 0 ∧
      (s.core.capturing n = false → Writes (fun k => k = entKey (0x2A10 + n) 8) s t) ∧
      (s.core.capturing n = true → t.core.ent (0x2A10 + n) 9 = 5 ∧
        t.core.ent (0x2A10 + n) 12 = (s.core.capture n).before ∧
        Writes (fun k => entKey (0x2A10 + n) 8 ≤ k ∧ k ≤ entKey (0x2A10 + n) 12) s t))) ∧
  (∀ (n : Fin 4) (s : State), s.core.captureFull n = true →
    Ends (.captureComplete n) s (fun t => t.core.ent (0x2A10 + n) 9 = 4 ∧
      Presents s t (s.core.captureSource n) 0x0502 (d8 n ++ d32 (((s.core.capture n).stored.filter (fun x => !x.2.1.valid)).length +
        (s.core.capture n).before)) ∧ Moves (fun k => k = entKey (0x2A10 + n) 9) s t))

/-- SETTLING_END brings a path's mute reasons up to date (R83, R106); PATH_GO_LIVE starts the path's ramp with record 0x0302 and
its bit of 0x110A, or, where the ramp is to start at a later tick (R196, R204), holds it for that tick (R35); RAMP_END makes a
path that ramps up live and ends its ramp, and one that ramps down muted, or nothing where it is no longer configured (R253). -/
def Obligations.PathMuteMoments : Prop :=
  (∀ (p : Fin 32) (s : State), s.core.cfg.configured p = true → s.core.pe p 9 1 = 0 → bit (s.core.pe p 1 2) 6 = true →
    Ends (.settlingEnd p) s (fun t => t.core.pe p 1 2 = s.core.muteReasons p ∧ Moves (footPath p) s t)) ∧
  (∀ (p : Fin 32) (s : State), s.core.mayGoLive p = true →
    Ends (.pathGoLive p) s (fun t =>
      (atOrBefore (s.core.rampFrom p) s.core.clock = true →
        (Nat.land (s.core.guardCauses p) 0xA9 = 0 → t.core.pe p 1 1 = psUp ∧ t.core.entBit 0x110A 0 p = true) ∧
        (t.core.path p).rampTick = some (s.core.rampFrom p) ∧ Presents s t (2 + p) 0x0302 (d16 0) ∧
        Moves (fun k => footGuard p k ∨ k = entKey (pIdx p 0x21) 6) s t) ∧
      (atOrBefore (s.core.rampFrom p) s.core.clock = false → (t.core.path p).armed = true ∧
        (t.core.path p).rampTick = some (s.core.rampFrom p) ∧ Moves (fun _ => False) s t))) ∧
  (∀ (p : Fin 32) (r : Ramp) (s : State), (s.core.path p).ramp = some r → 64 ≤ r.k →
    (s.core.pe p 1 1 = psUp → Ends (.rampEnd p) s (fun t => t.core.pe p 1 1 = psLive ∧ (t.core.path p).ramp = none ∧
      Moves (fun k => k = entKey (pIdx p 1) 1) s t)) ∧
    (s.core.pe p 1 1 = psDown → Ends (.rampEnd p) s (fun t =>
      t.core.pe p 1 1 = (if s.core.cfg.configured p = true then psMuted else psNone) ∧
      Moves (fun k => footPath p k ∨ k = entKey (pIdx p 9) 1) s t)))

/-- CONVERTER_POWER_DOWN clears the status of a converter that is no longer to be powered; CONVERTER_CALIBRATED marks a
powered one calibrated, and a receive converter ready as well (R34, R68). -/
def Obligations.ConverterMoments : Prop :=
  (∀ (v : Converter) (s : State), s.core.cvOn v = true → s.core.wantsPower (cvTx v) (cvNum v) = false →
    Ends (.converterPowerDown v) s (fun t => t.core.ent (cvIndex v) (cvNum v + 1) = 0 ∧
      Moves (fun k => footMode k ∨ footPoints k) s t)) ∧
  (∀ (v : Converter) (s : State), s.core.cvOn v = true → s.core.entBit (cvIndex v) (cvNum v + 1) 1 = false →
    Ends (.converterCalibrated v) s (fun t =>
      t.core.ent (cvIndex v) (cvNum v + 1) =
        (let x := setBit (s.core.ent (cvIndex v) (cvNum v + 1)) 1 true
         match v with | .rfin _ => setBit x 2 true | .rfout _ => x) ∧
      Moves footMode s t))

/-- RFIN_WORD counts the word's over-range samples (R69); where the interface's buffer holds eight words it is discarded and
counted, and no sample of it is buffered (R19). SAMPLE_RELEASE: an RFOUT carries 24 samples of 14 bits, zeros while the
release stage is silenced (R61, R70, R248, R356), and what is spent leaves its retimer; a Line port keeps only what is due
later (R17). The model's own choice: log entry 13. -/
def Obligations.WordsInAndOut : Prop :=
  (∀ (n : Fin 8) (l : List (BitVec 12)) (s : State), s.core.rfinOn n = true → l.length = 16 →
      Ends (.rfinWord n l) s (fun t =>
        t.core.ent 0x2805 (n + 1) =
          (let clips := (l.filter (fun x => x.toInt = -2048 ∨ x.toInt = 2047)).length
           if clips = 0 then s.core.ent 0x2805 (n + 1) else min (s.core.ent 0x2805 (n + 1) + clips) 0xFFFFFFFF) ∧
        (let held := ((s.core.rfin n).buffer.filter (fun w => !w.2.isEmpty)).length
         (8 ≤ held → (∀ w ∈ (t.core.rfin n).buffer, w ∈ (s.core.rfin n).buffer ∨ w = (s.core.clock, [])) ∧
            t.core.ent 0x2887 (n + 1) = min (s.core.ent 0x2887 (n + 1) + 1) 0xFFFFFFFF) ∧
          (held < 8 → (∀ w ∈ (t.core.rfin n).buffer, w ∈ (s.core.rfin n).buffer ∨ w = (s.core.clock, l)) ∧
            t.core.ent 0x2887 (n + 1) = s.core.ent 0x2887 (n + 1))) ∧
        Moves (fun k => footFabric k ∨ k = entKey 0x2805 (n + 1) ∨ k = entKey 0x2887 (n + 1)) s t)) ∧
  (∀ (s : State), s.core.awake = true → s.core.ticking = true →
      (∀ (o : Fin 8), Ends (.sampleRelease (.rfout o)) s (fun t =>
        (t.core.sink o).word.length = 24 ∧ (∀ x, x ∈ (t.core.sink o).word → -8192 ≤ x ∧ x ≤ 8191) ∧
        (s.core.silenced = true → ∀ x, x ∈ (t.core.sink o).word → x = 0) ∧
        (∀ d, d ∈ (t.core.sink o).due → atOrBefore d.release s.core.clock = true →
          ticksFrom d.release s.core.clock + 1 < d.words.length / 24) ∧
        Moves (fun k => k = entKey 0x2806 (o + 1) ∨ k = entKey 0x2883 (o + 1) ∨
          ∃ q, k = entKey 0x2882 (q + 1)) s t)) ∧
      (∀ (q : Fin 3), Ends (.sampleRelease (.port q)) s (fun t =>
        (∀ d, d ∈ (t.core.sink (8 + q)).due → atOrBefore d.release s.core.clock = false) ∧
        Moves (fun k => k = entKey 0x2807 (q + 1) ∨ k = entKey 0x2883 (8 + q + 1) ∨
          ∃ j, k = entKey 0x2882 (j + 1)) s t)))

/-- EXPRESS_WINDOW_END, STOPPING_INTERVAL_END and COMPOSITE_WINDOW_END write their window's number, and at the output point
of Express and for composite levels outside SHUNT nothing beside their own results (R118, R122, R125). -/
def Obligations.WindowEnds : Prop :=
  (∀ (p : Fin 32) (pt : Point) (s : State), s.core.exDue p pt = true →
    Ends (.expressWindowEnd p pt) s (fun t =>
      t.core.ent (pIdx p (exOff pt)) 2 = (match ((s.core.path p).ex pt).window with
        | some n => n
        | none => s.core.exNumber p (s.core.clock + 2 ^ 64 - s.core.cfg.exLen p)) ∧
      (pt = .output → Moves (fun k => entKey (pIdx p 0x12) 1 ≤ k ∧ k ≤ entKey (pIdx p 0x12) 5) s t) ∧
      (pt = .input → Moves footFabric s t))) ∧
  (∀ (p : Fin 32) (pt : Point) (s : State), s.core.stDue p pt = true →
    Ends (.stoppingIntervalEnd p pt) s (fun t =>
      t.core.ent (pIdx p (stOff pt)) 2 = (match ((s.core.path p).st pt).window with
        | some n => n
        | none => s.core.stNumber p (s.core.clock + 2 ^ 64 - s.core.stLen p)) ∧
      t.core.ent (pIdx p (stOff pt)) 3 = ((s.core.path p).st pt).count ∧
      (pt = .input → Moves (fun k => entKey (pIdx p 0x13) 1 ≤ k ∧ k ≤ entKey (pIdx p 0x13) 5) s t) ∧
      (pt = .output → Moves (fun k => (entKey (pIdx p 0x14) 1 ≤ k ∧ k ≤ entKey (pIdx p 0x14) 5) ∨ footGuard p k ∨
        k = entKey (pIdx p 0x22) 4 ∨ k = entKey (pIdx p 0x22) 5) s t))) ∧
  (∀ (n : Fin 8) (s : State), s.core.awake = true → s.core.clock % 1024 = 0 →
    Ends (.compositeWindowEnd n) s (fun t =>
      t.core.ent 0x2A00 (n + 1) = cdbRaw (compositeLevel (s.core.sink n).composite) ∧
      t.core.ent 0x2A03 0 = (s.core.clock + 2 ^ 64 - 1024) % 2 ^ 64 / 1024 % 2 ^ 32 ∧
      (s.core.mode ≠ mShunt →
        Moves (fun k => k = entKey 0x2A00 (n + 1) ∨ k = entKey 0x2A01 (n + 1) ∨ k = entKey 0x2A03 0) s t) ∧
      Moves (fun k => k = entKey 0x2A00 (n + 1) ∨ k = entKey 0x2A01 (n + 1) ∨ k = entKey 0x2A03 0 ∨ footMode k) s t))

/-- TAP_FREEZE and TAP_RELEASE set P+0x19.05 and record 0x0604 where it changes; TAP_RESET clears the taps of a path that is
not live with record 0x0605 and is refused on a live one (R141). -/
def Obligations.TapCommands : Prop :=
  (∀ (o : Origin) (p : Fin 32) (s : State), Accepts s o (pIdx p 0x19) 5 (d8 1) →
    Ends (.tapFreeze o p) s (fun t => t.core.ent (pIdx p 0x19) 5 = 1 ∧
      (s.core.ent (pIdx p 0x19) 5 ≠ 1 → ∃ x, Presents s t 34 0x0604 (d8 p ++ d8 4 ++ d8 x)) ∧
      Writes (fun k => k = entKey (pIdx p 0x19) 5 ∨ k = entKey (pIdx p 0x19) 7 ∨ k = entKey (pIdx p 0x1A) 10) s t)) ∧
  (∀ (o : Origin) (p : Fin 32) (s : State), Accepts s o (pIdx p 0x19) 5 (d8 0) →
    Ends (.tapRelease o p) s (fun t => t.core.ent (pIdx p 0x19) 5 = 0 ∧
      (s.core.ent (pIdx p 0x19) 5 ≠ 0 → ∃ x, Presents s t 34 0x0604 (d8 p ++ d8 (t.core.ent (pIdx p 0x19) 7) ++ d8 x)) ∧
      Writes (fun k => k = entKey (pIdx p 0x19) 5 ∨ k = entKey (pIdx p 0x19) 7 ∨ k = entKey (pIdx p 0x1A) 10) s t)) ∧
  (∀ (o : Origin) (p : Fin 32) (s : State), Accepts s o (pIdx p 0x19) 6 (d8 1) →
    Ends (.tapReset o p 1) s (fun t => Writes (fun _ => False) s t ∧
      (s.core.entBit 0x110A 0 p = false → (t.core.path p).canc.taps = [] ∧ Presents s t 34 0x0605 (d8 p ++ d8 2)) ∧
      (s.core.entBit 0x110A 0 p = true → t.core.paths = s.core.paths)))

/-- SWEEP_START starts phase 1, or leaves the reason that refuses it with record 0x0607; SWEEP_ABORT ends a sweep with result
6; SWEEP_PHASE_END goes on to the next phase, and ends the sweep after the fifth; SWEEP_COMPLETE stores the result with
record 0x0606 (R151 to R153). The model's own choice: log entry 28. -/
def Obligations.Sweeps : Prop :=
  (∀ (o : Origin) (p : Fin 32) (s : State), Accepts s o (pIdx p 0x1C) 1 (d8 1) → (s.core.path p).canc.phase = 0 →
    Ends (.sweepStart o p) s (fun t =>
      (s.core.sweepRefusal p ≠ 0 → t.core.ent (pIdx p 0x1C) 1 = s.core.sweepRefusal p ∧
        Presents s t 34 0x0607 (d8 p ++ d8 (s.core.sweepRefusal p)) ∧ Writes (fun k => k = entKey (pIdx p 0x1C) 1) s t) ∧
      (s.core.sweepRefusal p = 0 → t.core.ent (pIdx p 0x1C) 1 = 1 ∧ (t.core.path p).canc.phase = 1 ∧
        Writes (fun k => footPath p k ∨ k = entKey (pIdx p 0x1C) 1) s t))) ∧
  (∀ (o : Origin) (p : Fin 32) (s : State), Accepts s o (pIdx p 0x1C) 1 (d8 2) →
    Ends (.sweepAbort o p) s (fun t => (t.core.path p).canc.phase = 0 ∧ Writes (footSweep p) s t ∧
      ((s.core.path p).canc.phase ≠ 0 → t.core.ent (pIdx p 0x1C) 1 = 6 ∧ Presents s t 34 0x0607 (d8 p ++ d8 6)))) ∧
  (∀ (p : Fin 32) (s : State), s.core.phaseSpent p = true → (s.core.path p).canc.phase ≠ 4 →
    Ends (.sweepPhaseEnd p) s (fun t => Moves (footSweep p) s t ∧
      (t.core.path p).canc.phase = (if (s.core.path p).canc.phase = 5 then 0 else (s.core.path p).canc.phase + 1))) ∧
  (∀ (p : Fin 32) (s : State), s.core.phaseSpent p = true → (s.core.path p).canc.phase = 4 →
    Ends (.sweepComplete p) s (fun t => (t.core.path p).canc.phase = 5 ∧ t.core.ent (pIdx p 0x1C) 8 = s.core.clock ∧
      (∃ l, Presents s t 34 0x0606 (d8 p ++ l)) ∧
      Moves (fun k => (entKey (pIdx p 0x1C) 5 ≤ k ∧ k ≤ entKey (pIdx p 0x1C) 8) ∨ k = entKey 0x3006 0 ∨
        k = entKey 0x3007 0 ∨ k = entKey 0x110C 0) s t))

/-- CORRELATION_WINDOW_END starts the window's sums again and marks the window valid or invalid in P+0x1A.10; an invalid one
leaves every result as it was (R142, R144). ROM_CHECK counts the check, and the first that fails mutes every path, with record
0x0401 of the node and of each configured path (R114). The model's own choice: log entry 135. -/
def Obligations.CorrelationAndRomChecks : Prop :=
  (∀ (p : Fin 32) (s : State), (s.core.path p).canc.window.window.isSome = true → (s.core.path p).canc.phase = 0 →
    (s.core.path p).canc.window.sum ≤ (s.core.path p).canc.window.count * tsOf (s.core.cfg.rate p) →
    Ends (.correlationWindowEnd p) s (fun t => (t.core.path p).canc.window = Power.zero ∧ (t.core.path p).canc.corr = [] ∧
      t.core.entBit (pIdx p 0x1A) 10 4 = !t.core.entBit (pIdx p 0x1A) 10 0 ∧
      ((s.core.path p).canc.window.flags ≠ 0 → t.core.entBit (pIdx p 0x1A) 10 0 = false ∧ Moves (fun k => k = entKey (pIdx p 0x1A) 10) s t) ∧
      Moves (fun k => entKey (pIdx p 0x1A) 1 ≤ k ∧ k ≤ entKey (pIdx p 0x1A) 10) s t)) ∧
  (∀ (good : Bool) (s : State), s.core.phase = .ready → s.core.time.romNext ≤ s.core.now →
    Ends (.romCheck good) s (fun t => t.core.ent 0x2903 3 = (s.core.ent 0x2903 3 + 1) % 2 ^ 32 ∧
      t.core.time.romNext = s.core.now + 10 * second ∧
      (good = true ∨ s.core.ent 0x2903 1 ≠ 0 → Moves (fun k => k = entKey 0x2903 3) s t) ∧
      (good = false → s.core.ent 0x2903 1 = 0 → t.core.ent 0x2903 1 = 1 ∧ Presents s t 0 0x0401 (d8 0xFF) ∧
        (∀ p, p < 32 → bit (t.core.pe p 1 2) 4 = true ∧
          (s.core.cfg.configured p = true → Presents s t (2 + p) 0x0401 (d8 p))) ∧
        Moves (fun k => k = entKey 0x2903 3 ∨ k = entKey 0x2903 1 ∨ footMode k) s t)))

/-- OSCILLATION_RETRY lifts the mute with record 0x0702 (R163); RETRY_BACKOFF_RELEASE steps the retry backoff by 1 dB and
waits a second for the next step (R163); OOB_MUTE_LIFT ends a mute at the floor and leaves the backoff (R169). -/
def Obligations.GuardTimersLift : Prop :=
  (∀ (p : Fin 32) (s : State), s.core.pe p 0x20 4 = 3 → s.core.latched = false →
    s.core.reached (s.core.path p).guard.oscLift = true →
    Ends (.oscillationRetry p) s (fun t => t.core.pe p 0x20 4 = 0 ∧ (t.core.path p).guard.oscLift = none ∧
      Presents s t 35 0x0702 (d8 p ++ d16 (s.core.ent 0x3102 0)) ∧ Moves (footGuard p) s t)) ∧
  (∀ (s : State), s.core.latched = false → s.core.reached s.core.guard.retryAt = true →
    Ends .retryBackoffRelease s (fun t => t.core.ent 0x3102 0 = cdbRaw (min 0 (s.core.cdb 0x3102 0 + 100)) ∧
      t.core.guard.retryAt = (if 0 ≤ s.core.cdb 0x3102 0 + 100 then none else some (s.core.now + second)) ∧
      Moves (fun k => footNode k ∨ k = entKey 0x3102 0) s t)) ∧
  (∀ (p : Fin 32) (s : State), s.core.latched = false → s.core.reached (s.core.path p).guard.oobLift = true →
    Ends (.oobMuteLift p) s (fun t => (t.core.path p).guard.oobLift = none ∧
      t.core.pe p 0x23 5 =
        (if s.core.cdb (pIdx p 0x23) 3 < 0 ∨ (s.core.path p).guard.breach = true then 2 else 1) ∧
      t.core.pe p 0x23 3 = s.core.pe p 0x23 3 ∧ Moves (fun k => footGuard p k ∨ k = entKey (pIdx p 0x23) 5) s t))

/-- OVERLOAD_WINDOW_END counts the windows in a row at the threshold and mutes at the limit with record 0x0706; below it the
release time runs. OVERLOAD_RELEASE lifts the mute with record 0x0706 (R166). -/
def Obligations.OverloadMoments : Prop :=
  (∀ (n : Fin 8) (s : State), s.core.awake = true → s.core.clock % 128 = 0 →
    (s.core.ent 0x2800 (n + 1) = 1 ∨ s.core.ent 0x2800 (n + 1) = 2) →
    Ends (.overloadWindowEnd n) s (fun t =>
      let high := s.core.ent 0x3120 1 ≤ (s.core.rfin n).overRange
      let run := if high then (s.core.rfin n).run + 1 else 0
      (t.core.rfin n).overRange = 0 ∧ (t.core.rfin n).run = run ∧
      (s.core.ent 0x3121 (n + 1) = 0 → run < s.core.ent 0x3120 2 → Moves (fun _ => False) s t) ∧
      (s.core.ent 0x3121 (n + 1) = 0 → s.core.ent 0x3120 2 ≤ run →
        t.core.ent 0x3121 (n + 1) = 1 ∧ t.core.ent 0x3122 (n + 1) = min (s.core.ent 0x3122 (n + 1) + 1) 0xFFFFFFFF ∧
        Presents s t 35 0x0706 (d8 n ++ d8 1 ++ d32 run) ∧
        Moves (fun k => footFabric k ∨ footPoints k ∨ k = entKey 0x3121 (n + 1) ∨ k = entKey 0x3122 (n + 1)) s t) ∧
      (s.core.ent 0x3121 (n + 1) ≠ 0 → t.core.ent 0x3121 (n + 1) = (if high then 1 else 2) ∧
        Moves (fun k => k = entKey 0x3121 (n + 1)) s t))) ∧
  (∀ (n : Fin 8) (s : State), s.core.ent 0x3121 (n + 1) = 2 → s.core.latched = false →
    s.core.reached (s.core.rfin n).releaseAt = true →
    Ends (.overloadRelease n) s (fun t => t.core.ent 0x3121 (n + 1) = 0 ∧ (t.core.rfin n).releaseAt = none ∧
      Presents s t 35 0x0706 (d8 n ++ d8 0 ++ d32 (s.core.rfin n).run) ∧
      Moves (fun k => footFabric k ∨ footPoints k ∨ k = entKey 0x3121 (n + 1)) s t))

/-- OOB_CHECK counts a check for each path its receiver watches and, while no proving dwell runs, moves nothing outside the
paths and the node's Guard entries (R167 to R169). UNVERIFIED_BACKOFF marks the path and the node with record 0x070A. The
model's own choice: log entry 34. -/
def Obligations.OutOfBandChecks : Prop :=
  (∀ (k : Fin 2) (m : List OobMeasurement) (s : State), s.core.phase = .ready → s.core.clock % 491520 = 0 →
    s.core.receiverOn k = true →
    Ends (.oobCheck k m) s (fun t =>
      (s.core.twin.dwellEnd = none → s.core.checked k = [] → Moves (fun x => x = entKey 0x3100 0) s t) ∧
      (s.core.twin.dwellEnd = none → s.core.checked k ≠ [] →
        t.core.ent (0x3110 + k) 5 = (s.core.ent (0x3110 + k) 5 + (s.core.checked k).length) % 2 ^ 32 ∧
        Moves (fun x => footFabric x ∨ x = entKey (0x3110 + k) 5 ∨ x = entKey (0x3110 + k) 6) s t))) ∧
  (∀ (k : Fin 2) (p : Fin 32) (n : Nat) (s : State), s.core.receiverOn k = true →
    s.core.ent (0x3110 + k) 2 ∈ s.core.cfg.rfouts p → (s.core.path p).guard.unverified = false →
    (s.core.path p).guard.noValueSince = some n → n + s.core.ent (0x3110 + k) 3 * second ≤ s.core.now →
    Ends (.unverifiedBackoff k p) s (fun t => (t.core.path p).guard.unverified = true ∧
      t.core.entBit 0x3100 0 3 = true ∧ Presents s t 35 0x070A (d8 p ++ d8 k) ∧ Moves footNode s t))

/-- REFLECTED_MUTE_LIFT, REFLECTED_BACKOFF_RELEASE and REFLECTED_STALE: the mute and the backoff of an RFOUT's paths end,
each with its record, and a detector without fresh results is flagged and holds the backoff (R170). The model's own choice:
log entry 125. -/
def Obligations.ReflectedPowerMoments : Prop :=
  (∀ (n : Fin 8) (s : State), s.core.latched = false → s.core.reached (s.core.refl n).liftAt = true →
    Ends (.reflectedMuteLift n) s (fun t => (t.core.refl n).liftAt = none ∧
      (∀ p, p ∈ s.core.cfg.boundTo n → (t.core.path p).guard.reflMute = false ∧ (t.core.path p).guard.reflBackoff = true) ∧
      (∃ x, Presents s t 35 0x070B (d8 n ++ d16 (s.core.ent (0x3140 + n) 10) ++ d8 x)) ∧
      t.core.ent (0x3140 + n) 11 = min (s.core.ent (0x3140 + n) 11 + 1) 0xFFFFFFFF ∧
      Moves (fun k => (∃ p, p < 32 ∧ footGuard p k) ∨ k = entKey (0x3140 + n) 11) s t)) ∧
  (∀ (n : Fin 8) (g : Nat) (s : State), s.core.latched = false → s.core.reflBacked n = true →
    (s.core.refl n).liftAt = none → (s.core.refl n).stale = false → (s.core.refl n).goodSince = some g →
    g + second ≤ s.core.now → Ends (.reflectedBackoffRelease n) s (fun t => (t.core.refl n).goodSince = none ∧
      (∀ p, p ∈ s.core.cfg.boundTo n → (t.core.path p).guard.reflMute = false ∧ (t.core.path p).guard.reflBackoff = false) ∧
      (∃ x, Presents s t 35 0x070B (d8 n ++ d16 (s.core.ent (0x3140 + n) 10) ++ d8 x)) ∧
      t.core.ent (0x3140 + n) 11 = min (s.core.ent (0x3140 + n) 11 + 1) 0xFFFFFFFF ∧
      Moves (fun k => (∃ p, p < 32 ∧ footGuard p k) ∨ k = entKey (0x3140 + n) 11) s t)) ∧
  (∀ (n : Fin 8) (s : State), s.core.ent (0x3140 + n) 1 = 1 → (s.core.refl n).stale = false →
    (s.core.refl n).lastFresh + 10 * ms ≤ s.core.now →
    Ends (.reflectedStale n) s (fun t => (t.core.refl n).stale = true ∧ t.core.entBit 0x3100 0 7 = true ∧
      (t.core.refl n).goodSince = none ∧ Moves (fun k => k = entKey 0x3100 0) s t))

/-- NETSTOP_ASSERT and NETSTOP_RELEASE: the pin's state, its count, the status bit and record 0x070C; by its action the node
goes to ISOLATE or, outside a pair in step, to STAND; each assertion starts the 10 s of the release again (R171). The model's
own choice: log entry 126. -/
def Obligations.NetstopMoments : Prop :=
  (∀ (s : State), s.core.awake = true → (s.core.ent 0x3103 3 = 0 ∨ s.core.guard.netAt < s.core.now) →
    Ends .netstopAssert s (fun t => t.core.ent 0x3103 3 = 1 ∧ t.core.guard.netAt = s.core.now ∧
      t.core.ent 0x3103 4 = min (s.core.ent 0x3103 4 + 1) 0xFFFFFFFF ∧ t.core.entBit 0x3100 0 1 = true ∧
      Presents s t 35 0x070C (d8 0xFF ++ d8 (s.core.ent 0x3103 1)) ∧
      (s.core.ent 0x3103 1 = 1 → t.core.latched = true) ∧
      (s.core.ent 0x3103 1 = 1 → s.core.latched = false → t.core.ent 0x1100 0 = mIsolate ∧
        t.core.ent 0x1103 2 = 0x070C ∧ t.core.ent 0x1103 3 = s.core.clock) ∧
      (s.core.ent 0x3103 1 = 0 → s.core.latched = false → s.core.ent 0x5001 0 ≠ 2 → t.core.ent 0x1100 0 = mStand) ∧
      Moves (fun k => footNode k ∨ k = entKey 0x3103 3 ∨ k = entKey 0x3103 4) s t)) ∧
  (∀ (s : State), s.core.ent 0x3103 3 ≠ 0 → s.core.ent 0x6121 0 = 1 → s.core.guard.netAt + 10 * second ≤ s.core.now →
    s.core.latched = false →
    Ends .netstopRelease s (fun t => t.core.ent 0x3103 3 = 0 ∧ t.core.entBit 0x3100 0 1 = false ∧
      t.core.guard.netStand = false ∧ Presents s t 35 0x070C (d8 0xFF ++ d8 (s.core.ent 0x3103 1)) ∧
      Moves (fun k => footMode k ∨ k = entKey 0x3103 3 ∨ k = entKey 0x3100 0) s t))

/-- LINE_STOP_RELEASE, LINE_STOP_STAND and LINE_STOP_ISOLATE store the command, its originator and its tag, with record
0x070D and the status bit; a STAND outside a pair in step and an ISOLATE set the mode (R172). The model's own choice: log
entry 58. -/
def Obligations.LineStopWrites : Prop :=
  ∀ (o : Origin) (s : State),
    let stores : Nat → State → Prop := fun v t =>
      t.core.ent 0x3104 2 = v ∧ t.core.ent 0x3104 3 = originAddress o ∧ t.core.ent 0x3104 4 = o.tag.toNat ∧
      t.core.entBit 0x3100 0 2 = decide (v ≠ 0) ∧
      Presents s t 35 0x070D (d8 0xFF ++ d8 v ++ d16 (originAddress o) ++ d16 o.tag.toNat) ∧
      Writes (fun k => footNode k ∨ (entKey 0x3104 2 ≤ k ∧ k ≤ entKey 0x3104 4)) s t
    (Accepts s o 0x3104 1 (d8 0) → Ends (.lineStopRelease o) s (stores 0)) ∧
    (Accepts s o 0x3104 1 (d8 1) → Ends (.lineStopStand o) s (fun t => stores 1 t ∧
      (s.core.latched = false → s.core.ent 0x5001 0 ≠ 2 → t.core.ent 0x1100 0 = mStand))) ∧
    (Accepts s o 0x3104 1 (d8 2) → Ends (.lineStopIsolate o) s (fun t => stores 2 t ∧ t.core.latched = true ∧
      (s.core.latched = false → t.core.ent 0x1100 0 = mIsolate ∧ t.core.ent 0x1103 2 = 0x070D)))

/-- MODE_REQUEST: the requests that R31, R32, R40 and R335 turn away move nothing; any other sets the base mode and, while
no Guard cause, shut-down or pair decides it, the mode (R29). -/
def Obligations.ModeRequests : Prop :=
  ∀ (o : Origin) (v : Byte) (s : State), Accepts s o 0x1101 0 (d8 v.toNat) →
    let refused := s.core.ent 0x1100 0 = mIsolate ∨ v.toNat = 3 ∨ v.toNat = 5 ∨ (v.toNat = 2 ∧ s.core.ent 0x110C 0 = 1) ∨
      (v.toNat ≠ 0 ∧ s.core.entBit 0x1106 0 6 = true) ∨ (s.core.ent 0x5102 0 = 4 ∧ v.toNat ≠ 4)
    Ends (.modeRequest o v) s (fun t =>
      (refused → Writes (fun _ => False) s t) ∧
      (¬ refused → t.core.ent 0x1101 0 = v.toNat ∧ Writes (fun k => footMode k ∨ k = entKey 0x1101 0) s t ∧
        (s.core.latched = false → s.core.thermalDown = false → s.core.guardStand = false → s.core.ent 0x5001 0 ≠ 2 →
          t.core.ent 0x1100 0 =
            (if v.toNat = mDepot ∨ v.toNat = mShunt ∨ v.toNat = mStand then v.toNat
             else if s.core.cdb 0x3101 0 ≠ 0 ∨ s.core.ent 0x6004 0 = 4 ∨ s.core.cdb 0x5041 0 ≠ 0 then mCaution else mRun))))

/-- QUALIFIED_RESTART: outside ISOLATE, with another sequence than the latching record's, or while the cause stands, it
leaves its reason in 0x1103.04; else the latch is cleared, the base mode is DEPOT and record 0x0106 names the originator
(R43). The model's own choice: log entry 36. -/
def Obligations.QualifiedRestart : Prop :=
  ∀ (o : Origin) (v : Half) (s : State), Accepts s o 0x1103 4 (d16 v.toNat) →
    Ends (.qualifiedRestart o v) s (fun t =>
      let reason : Nat → Prop := fun r => t.core.ent 0x1103 4 = r ∧ Writes (fun k => k = entKey 0x1103 4) s t
      (s.core.ent 0x1100 0 ≠ mIsolate → reason 1) ∧
      (s.core.ent 0x1100 0 = mIsolate → v.toNat ≠ s.core.ent 0x1103 1 → reason 2) ∧
      (s.core.ent 0x1100 0 = mIsolate → v.toNat = s.core.ent 0x1103 1 → s.core.causeClear = false → reason 3) ∧
      (s.core.ent 0x1100 0 = mIsolate → v.toNat = s.core.ent 0x1103 1 → s.core.causeClear = true →
        t.core.ent 0x1103 4 = 0 ∧ t.core.latched = false ∧ t.core.ent 0x1101 0 = mDepot ∧
        Presents s t 0 0x0106 (d16 (originAddress o) ++ d16 o.tag.toNat) ∧
        Writes (fun k => footMode k ∨ k = entKey 0x1103 4 ∨ k = entKey 0x1101 0 ∨ k = entKey 0x3007 0 ∨ k = entKey 0x110C 0) s t ∧
        (s.core.thermalDown = false → s.core.guardStand = false → s.core.ent 0x5001 0 ≠ 2 →
          t.core.ent 0x1100 0 = mDepot)))

/-- POWER_ON_RESET and TWIN_RESET_HOLD: a full reset with its cause, held back by a save in progress where the supply stands.
RESET_N low for 2.0 µs or more resets with cause 1, at once or at the end of the save in progress; a low of 0.5 µs or less is
ignored; one between the two resets wholly or is ignored wholly (R458). RESET_RELEASE, the moment all rails are in range and
RESET_N is high, begins the reset phase with the straps latched. The model's own choices: log entries 49, 50. -/
def Obligations.FullResets : Prop :=
  (∀ (s : State), Ends .powerOnReset s (fun t => AtReset 0 s t ∧ t.jtag = Jtag.init ∧ t.book = Book.init ∧
    t.core.persist = [] ∧ t.nv.unit = none)) ∧
  (∀ (n : Nat) (s : State),
    (n ≤ 500 → Ends (.resetNLow n) s (fun t => t = s)) ∧
    (2000 ≤ n → s.core.phase = .held → Ends (.resetNLow n) s (fun t => t = s.onCore (fun c => { c with resetLow := true }))) ∧
    (2000 ≤ n → s.core.phase ≠ .held → s.core.supply.save = none →
      Ends (.resetNLow n) s (fun t => AtReset 1 s t ∧ t.core.resetLow = true ∧ t.jtag = s.jtag)) ∧
    (2000 ≤ n → s.core.phase ≠ .held → s.core.supply.save ≠ none →
      Ends (.resetNLow n) s (fun t => t.core.supply.heldReset = some (s.core.supply.heldReset.getD (1, s.core.now)) ∧
        t.core.phase = s.core.phase ∧
        Moves (fun _ => False) s t)) ∧
    (500 < n → n < 2000 → Ends (.resetNLow n) s (fun t => (t.core.dict = s.core.dict ∧ Beside s t) ∨ AtReset 1 s t))) ∧
  (∀ (s : State), s.core.twin.resetHold = true →
    Ends .twinResetHold s (fun t => t.jtag = s.jtag ∧ (s.core.supply.save = none → AtReset 3 s t) ∧
      (s.core.supply.save ≠ none → t.core.supply.heldReset ≠ none ∧ Moves (fun _ => False) s t))) ∧
  (∀ (straps : BitVec 7) (s : State), s.core.phase = .held → s.nv.unit = none → s.core.persist = [] →
    Ends (.resetRelease straps) s (fun t => t.core.phase = .released ∧ t.core.since = s.core.now ∧
      t.core.resetLow = false ∧ t.core.ent 0x1107 0 = straps.toNat ∧ t.core.ent 0x1200 0 = bits straps.toNat 3 2 ∧
      t.core.ent 0x6340 2 = 0x58 + bits straps.toNat 1 0 ∧ t.core.entBit 0x5000 0 0 = bit straps.toNat 4 ∧
      t.core.entBit 0x5000 0 1 = (bit straps.toNat 4 && bit straps.toNat 5) ∧ t.core.entBit 0x6100 0 0 = true ∧
      t.book = s.book ∧ t.nv = s.nv ∧ t.link = s.link ∧ t.pending = s.pending ∧
      Untouched (fun k => k = entKey 0x1107 0 ∨ k = entKey 0x1200 0 ∨ k = entKey 0x6340 2 ∨ k = entKey 0x5000 0 ∨
        k = entKey 0x6100 0) s t))

/-- RESET_COMMAND with 0xC1A5 closes the collector, releases a freeze, and resets when the queue is written out or after its
time; any other value does nothing (R36, R404). -/
def Obligations.ResetCommands : Prop :=
  (∀ (o : Origin) (v : Half) (s : State), Accepts s o 0x1108 0 (d16 v.toNat) →
    Ends (.resetCommand o v) s (fun t =>
      (v.toNat ≠ 0xC1A5 → Writes (fun _ => False) s t) ∧
      (v.toNat = 0xC1A5 → t.book.closed = true ∧ t.book.frozen = none ∧ t.book.releasedByReset = s.book.frozen.isSome ∧
        t.book.drainBy = some (s.core.now + 25165824) ∧ t.pending = s.pending ∧ t.jtag = s.jtag ∧
        (s.book.opened = true → t.core.presented = []) ∧
        (s.book.frozen ≠ none → t.core.ent 0x6410 0 = 0 ∧ t.core.entBit 0x6400 0 0 = false) ∧
        Untouched (fun k => footReply k ∨ footBook k) s t)))

/-- START_LOCK: the station clock counts from 0 and the book opens (R39, R406); DEPOT_READY: record 0x0103, the start mode,
and the flag of a RUN withheld (R39, R44). The model's own choices: log entries 41, 42, 121. -/
def Obligations.StartUp : Prop :=
  (∀ (s : State), s.core.phase = .released →
    Ends .startLock s (fun t => t.core.phase = .locked ∧ t.core.ticking = true ∧ t.core.clock = 0 ∧
      t.core.since = s.core.now ∧ t.book.opened = true ∧ t.link = s.link ∧ t.jtag = s.jtag ∧ t.pending = s.pending ∧
      (t.core.latched = true → t.core.ent 0x1100 0 = mIsolate))) ∧
  (∀ (s : State), s.core.phase = .locked →
    Ends .depotReady s (fun t => t.core.phase = .ready ∧ t.core.since = s.core.now ∧
      Presents s t 0 0x0103 (d8 (s.core.ent 0x1105 0) ++ d32 (s.core.ent 0x1106 0) ++ d8 (s.core.ent 0x1107 0)) ∧
      (let withheld := s.core.ent 0x110B 0 = 2 ∧ s.core.ent 0x110C 0 = 1
       t.core.entBit 0x1106 0 9 = decide withheld ∧
       t.core.ent 0x1101 0 =
         (if s.core.latched = true ∨ s.core.entBit 0x1106 0 6 = true ∨ withheld then mDepot else s.core.ent 0x110B 0)) ∧
      Moves (fun k => footMode k ∨ k = entKey 0x1101 0 ∨ k = entKey 0x1106 0 ∨ footTwin k ∨ footTwoWire k) s t))

/-- IMAGE_SAVE begins a save with the next epoch, or says that the epochs are used up; IMAGE_SAVE_DONE ends it by its
read-back; SLOT_ERASE hands a slot other than the running one to the NV write engine, which empties it (R24, R42). The model's
own choices: log entries 46, 136. -/
def Obligations.ImageSlots : Prop :=
  (∀ (o : Origin) (s : State), Accepts s o 0x1112 0 (d8 1) →
    Ends (.imageSave o 1) s (fun t =>
      (s.nv.job ≠ none → Writes (fun _ => False) s t) ∧
      (s.nv.job = none → t.book = s.book ∧ t.jtag = s.jtag ∧ t.pending = s.pending ∧
        t.nv.slotA = s.nv.slotA ∧ t.nv.slotB = s.nv.slotB ∧ Untouched (fun k => footReply k ∨ k = entKey 0x1112 0) s t ∧
        (s.nextEpoch = 0xFFFFFFFF → t.core.ent 0x1112 0 = 2 ∧ t.nv = s.nv) ∧
        (s.nextEpoch ≠ 0xFFFFFFFF → t.core.ent 0x1112 0 = 1 ∧
          ∃ j, t.nv.job = some j ∧ j.page = 0 ∧ j.slot = s.saveTarget ∧ slotEpoch j.bytes = s.nextEpoch % 2 ^ 32)))) ∧
  (∀ (j : ImageJob) (s : State), s.nv.job = some j → j.bytes.length ≤ 256 * j.page →
    Ends .imageSaveDone s (fun t => t.nv = { s.nv with job := none } ∧ t.book = s.book ∧ t.link = s.link ∧
      t.jtag = s.jtag ∧ t.pending = s.pending ∧
      t.core.ent 0x1112 0 = (if (if j.slot = 1 then s.nv.slotA else s.nv.slotB) = j.bytes then 0 else 4) ∧
      Untouched (fun k => k = entKey 0x1112 0) s t)) ∧
  (∀ (o : Origin) (v : Byte) (s : State), Accepts s o 0x1115 0 (d8 v.toNat) →
    Ends (.slotErase o v) s (fun t => t.book = s.book ∧ t.jtag = s.jtag ∧ t.pending = s.pending ∧
      Untouched footReply s t ∧
      t.nv.slotA = s.nv.slotA ∧ t.nv.slotB = s.nv.slotB ∧
      (v.toNat = s.core.ent 0x1111 1 ∨ (∃ j, s.nv.job = some j ∧ j.slot = v.toNat) → t.nv = s.nv) ∧
      (v.toNat = 1 ∨ v.toNat = 2 → v.toNat ≠ s.core.ent 0x1111 1 → (∀ j, s.nv.job = some j → j.slot ≠ v.toNat) →
        t.nv.erasing = s.nv.erasing ++ [v.toNat])))

/-- POWER_ON_HOUR counts the hour in persistent state (R45); LOCK_LOSS and RELOCK: the lock bits, the count, their records and
the time status LOST or ACQUIRING (R47). -/
def Obligations.HourAndLock : Prop :=
  (∀ (s : State), s.core.awake = true →
    Ends .powerOnHour s (fun t => t.core.ent 0x1120 0 = min (s.core.ent 0x1120 0 + 1) 0xFFFFFFFF ∧
      t.core.persist = s.core.persist ++ [[(entKey 0x1120 0, t.core.ent 0x1120 0)]] ∧
      Moves (fun k => k = entKey 0x1120 0) s t)) ∧
  (∀ (s : State), s.core.awake = true → s.core.entBit 0x1201 0 0 = true →
    Ends .lockLoss s (fun t => t.core.entBit 0x1201 0 0 = false ∧
      t.core.ent 0x1202 0 = min (s.core.ent 0x1202 0 + 1) 0xFFFFFFFF ∧ t.core.time.qualified = [] ∧
      t.core.ent 0x1221 0 = 4 ∧ t.core.ent 0x1222 0 = 0 ∧ Presents s t 1 0x0201 [] ∧
      Moves (fun k => footTime k ∨ footTwin k ∨ k = entKey 0x1201 0 ∨ k = entKey 0x1202 0 ∨ k = entKey 0x5100 0) s t)) ∧
  (∀ (s : State), s.core.awake = true → s.core.entBit 0x1201 0 0 = false →
    Ends .relock s (fun t => t.core.entBit 0x1201 0 0 = true ∧ t.core.entBit 0x1201 0 1 = true ∧
      t.core.ent 0x1221 0 = 1 ∧ t.core.ent 0x1222 0 = 0 ∧ Presents s t 1 0x0202 [] ∧
      Moves (fun k => footTime k ∨ footTwin k ∨ k = entKey 0x1201 0) s t))

/-- THERMAL_READING counts the reading; an on-die sensor in range shows its reading and one out of range shows 0x8000; the
state follows from the three flags (R340 to R343). The model's own choice: log entry 102. -/
def Obligations.ThermalReading : Prop :=
  ∀ (r : SensorCycle) (s : State), s.core.awake = true → s.core.clock % 491520 = 0 →
    Ends (.thermalReading r) s (fun t => t.core.ent 0x6006 0 = (s.core.ent 0x6006 0 + 1) % 2 ^ 32 ∧
      (∀ k, k < 16 → t.core.ent 0x6011 (k + 1) =
        (if t.core.entBit 0x6007 0 k = true then 0x8000 else rawOf 16 (r.onDie.getD k 0))) ∧
      t.core.ent 0x6000 0 = (if t.core.entBit 0x6001 0 2 = true then 3 else if t.core.entBit 0x6001 0 1 = true then 2
        else if t.core.entBit 0x6001 0 0 = true then 1 else 0) ∧
      Moves (fun k => footLadder k ∨ (entKey 0x6000 0 ≤ k ∧ k < entKey 0x6041 0) ∨ k = entKey 0x1230 7) s t)

/-- LADDER_ADVANCE and LADDER_RETREAT move one step, or shed or restore one path, with record 0x0E02 (R344 to R346). The
model's own choice: log entry 104. -/
def Obligations.ThermalLadder : Prop :=
  (∀ (s : State), s.core.ladderAdvances = true →
    Ends .ladderAdvance s (fun t => t.core.therm.moveFrom = s.core.now ∧ Moves footLadder s t ∧
      (s.core.ent 0x6004 0 = 0 → t.core.ent 0x6004 0 = 1 ∧ t.core.entBit 0x3003 0 0 = true ∧
        Presents s t 42 0x0E02 (d8 1 ++ d8 0xFF)) ∧
      (s.core.ent 0x6004 0 = 1 → t.core.ent 0x6004 0 = 2 ∧ t.core.entBit 0x2A04 0 1 = true ∧
        Presents s t 42 0x0E02 (d8 2 ++ d8 0xFF)) ∧
      (s.core.ent 0x6004 0 = 2 ∨ s.core.ent 0x6004 0 = 3 →
        (∀ p, s.core.nextShed = some p → t.core.ent 0x6004 0 = 3 ∧ t.core.entBit 0x6005 0 p = true ∧
          t.core.therm.shed = p :: s.core.therm.shed ∧ Presents s t 42 0x0E02 (d8 3 ++ d8 p)) ∧
        (s.core.nextShed = none → t.core.ent 0x6004 0 = 4 ∧ Presents s t 42 0x0E02 (d8 4 ++ d8 0xFF))))) ∧
  (∀ (s : State), s.core.ladderRetreats = true →
    Ends .ladderRetreat s (fun t => t.core.therm.moveFrom = s.core.now ∧ Moves footLadder s t ∧
      (s.core.ent 0x6004 0 = 1 → t.core.ent 0x6004 0 = 0 ∧ t.core.entBit 0x3003 0 0 = false) ∧
      (s.core.ent 0x6004 0 = 2 → t.core.ent 0x6004 0 = 1 ∧ t.core.entBit 0x2A04 0 1 = false) ∧
      (∀ p l, s.core.ent 0x6004 0 = 3 → s.core.therm.shed = p :: l →
        t.core.ent 0x6004 0 = (if l = [] then 2 else 3) ∧ t.core.entBit 0x6005 0 p = false ∧ t.core.therm.shed = l) ∧
      (s.core.ent 0x6004 0 = 4 → t.core.ent 0x6004 0 = (if s.core.therm.shed = [] then 2 else 3) ∧
        t.core.therm.shed = s.core.therm.shed)))

/-- BOOK_FREEZE holds the queue for 10 s, BOOK_RELEASE and BOOK_FREEZE_EXPIRY let it go on, each with record 0x1203 where the
freeze changes (R409). -/
def Obligations.BookFreezing : Prop :=
  (∀ (o : Origin) (s : State), Accepts s o 0x6410 0 (d8 1) →
    Ends (.bookFreeze o) s (fun t => t.book = { s.book with frozen := some (s.core.now + 10 * second) } ∧
      t.nv = s.nv ∧ t.jtag = s.jtag ∧ t.pending = s.pending ∧
      (s.book.frozen ≠ none → Untouched footReply s t) ∧
      (s.book.frozen = none → t.core.ent 0x6410 0 = 1 ∧ t.core.entBit 0x6400 0 0 = true ∧
        Presents s t 50 0x1203 (d8 1 ++ d8 1) ∧
        Untouched (fun k => footReply k ∨ k = entKey 0x6410 0 ∨ k = entKey 0x6400 0) s t))) ∧
  (∀ (o : Origin) (s : State), Accepts s o 0x6410 0 (d8 0) →
    Ends (.bookRelease o) s (fun t => t.book = { s.book with frozen := none } ∧ t.jtag = s.jtag ∧ t.pending = s.pending ∧
      (s.book.frozen = none → Writes (fun _ => False) s t) ∧
      (s.book.frozen ≠ none → t.core.ent 0x6410 0 = 0 ∧ t.core.entBit 0x6400 0 0 = false ∧
        Presents s t 50 0x1203 (d8 0 ++ d8 1) ∧
        Untouched (fun k => footReply k ∨ k = entKey 0x6410 0 ∨ k = entKey 0x6400 0) s t))) ∧
  (∀ (n : Nat) (s : State), s.book.frozen = some n → n ≤ s.core.now →
    Ends .bookFreezeExpiry s (fun t => t.book = { s.book with frozen := none } ∧ t.link = s.link ∧ t.jtag = s.jtag ∧
      t.pending = s.pending ∧ t.core.ent 0x6410 0 = 0 ∧ t.core.entBit 0x6400 0 0 = false ∧
      Presents s t 50 0x1203 (d8 0 ++ d8 3) ∧ Untouched (fun k => k = entKey 0x6410 0 ∨ k = entKey 0x6400 0) s t))

/-- NV_UNIT_COMPLETE, while no save and no reset command waits on it: a record reaches the slot of its sequence and leaves the
queue, a persistent-state unit reaches its region, an image page its slot, an erasure empties its slot, a save's header is
superseded, and a calibration page is counted (R24, R25, R403). The model's own choices: log entries 136, 137. -/
def Obligations.UnitsComplete : Prop :=
  ∀ (s : State), s.core.supply.save = none → s.book.drainBy = none →
    (∀ (r : Record), s.nv.unit = some (.book r) → Ends .nvUnitComplete s (fun t =>
      t.book = { s.book with queue := s.book.queue.tail } ∧
      t.nv.records.get (fun _ => 0) (slotOf (seqOf (ofLe r.bytes))) = ofLe r.bytes ∧ t.nv.newest ≠ none ∧
      (∀ k, k ≠ slotOf (seqOf (ofLe r.bytes)) → t.nv.records.get (fun _ => 0) k = s.nv.records.get (fun _ => 0) k) ∧
      t.core.ent 0x6406 0 = (s.core.ent 0x6406 0 + 1) % 2 ^ 32 ∧ t.pending = s.pending ∧
      Untouched (fun k => k = entKey 0x6406 0) s t)) ∧
    (∀ (b : List Byte), s.nv.unit = some (.restored b) → Ends .nvUnitComplete s (fun t =>
      t.book = { s.book with restored := s.book.restored.tail } ∧
      t.nv.records.get (fun _ => 0) (slotOf (seqOf (ofLe b))) = ofLe b ∧
      t.core.ent 0x6406 0 = (s.core.ent 0x6406 0 + 1) % 2 ^ 32 ∧ t.pending = s.pending ∧
      Untouched (fun k => k = entKey 0x6406 0) s t)) ∧
    (∀ (k v : Nat), s.nv.unit = some (.persist [(k, v)]) → Ends .nvUnitComplete s (fun t =>
      t.core.persist = s.core.persist.tail ∧ t.book = s.book ∧ t.pending = s.pending ∧
      (k < rosterKey 0 → t.nv.persistent.get (fun _ => 0) k = v ∧ t.nv.roster = s.nv.roster) ∧
      (rosterKey 0 ≤ k → t.nv.roster.get (fun _ => 0) (k - rosterKey 0) = v ∧ t.nv.persistent = s.nv.persistent) ∧
      Untouched (fun _ => False) s t)) ∧
    (∀ (k page : Nat) (b : List Byte) (j : ImageJob), s.nv.unit = some (.image k page b) → s.nv.job = some j →
      Ends .nvUnitComplete s (fun t =>
        t.nv.job = some { j with page := j.page + 1 } ∧ t.book = s.book ∧ t.pending = s.pending ∧
        (k = 1 → t.nv.slotA = padTo (256 * page) s.nv.slotA ++ b ∧ t.nv.slotB = s.nv.slotB) ∧
        (k ≠ 1 → t.nv.slotB = padTo (256 * page) s.nv.slotB ++ b ∧ t.nv.slotA = s.nv.slotA) ∧
        Untouched (fun _ => False) s t)) ∧
    (∀ (k : Nat), s.nv.unit = some (.erase k) → Ends .nvUnitComplete s (fun t =>
      t.nv.erasing = s.nv.erasing.tail ∧ t.nv.slotA = (if k = 1 then [] else s.nv.slotA) ∧
      t.nv.slotB = (if k = 1 then s.nv.slotB else []) ∧ t.book = s.book ∧ t.pending = s.pending ∧
      Untouched (fun _ => False) s t)) ∧
    (∀ (k : Nat), s.nv.unit = some (.supersede k) → Ends .nvUnitComplete s (fun t =>
      t.nv.superseding = none ∧ t.nv.header k = none ∧ t.book = s.book ∧ t.pending = s.pending ∧
      Untouched (fun _ => False) s t)) ∧
    (∀ (p : Nat) (last : Bool) (w x : Option SweepStore) (q n : Nat) (l : List (Nat × Nat × Option SweepStore)),
      s.nv.unit = some (.calibration p last w) → s.core.cal = (q, n, x) :: l → Ends .nvUnitComplete s (fun t =>
        t.core.cal = (if n ≤ 1 then l else (q, n - 1, x) :: l) ∧ t.book = s.book ∧ t.pending = s.pending ∧
        (last = true → t.nv.sweeps.get (fun _ => none) p = w) ∧ (last = false → t.nv.sweeps = s.nv.sweeps) ∧
        Untouched (fun k => k = entKey (pIdx p 0x1C) 7) s t))

/-- The hold-up save: a page that completes counts and the save goes on; SAVE_COMPLETE ends it complete and VHOLD_RUNS_OUT
partial, with its pages counted; after a brown-out the reset of cause 0 follows (R358, R359). The model's own choices: log
entries 106, 108. -/
def Obligations.HoldUpSave : Prop :=
  ∀ (v : Save) (s : State), s.core.supply.save = some v → s.book.drainBy = none →
    (∀ k, s.nv.unit = some (.save k) → k ≠ 80 → s.core.thermalDown = false → Ends .nvUnitComplete s (fun t =>
      (∃ w, t.core.supply.save = some w ∧ w.next = k + 1 ∧ w.good = v.good + 1 ∧ w.slot = v.slot) ∧
      t.nv.saveLast = v.slot ∧ t.book = s.book ∧ t.pending = s.pending ∧ Untouched (fun _ => False) s t)) ∧
    (s.nv.unit = some (.save 80) → s.core.supply.browned = false → s.core.supply.heldReset = none →
      Ends .saveComplete s (fun t => t.core.supply.save = none ∧ t.core.ent 0x6110 1 = 1 ∧
        t.core.ent 0x6110 5 = v.good + 1 ∧ t.core.entBit 0x6100 0 2 = false ∧ t.core.entBit 0x6100 0 4 = true ∧
        t.book = s.book ∧ t.pending = s.pending ∧
        Untouched (fun k => k = entKey 0x6100 0 ∨ (entKey 0x6110 1 ≤ k ∧ k ≤ entKey 0x6110 5)) s t)) ∧
    (s.nv.unit = some (.save 80) → s.core.supply.browned = true → Ends .saveComplete s (fun t => AtReset 0 s t)) ∧
    (s.core.supply.browned = false → s.core.supply.heldReset = none →
      Ends .vholdRunsOut s (fun t => t.core.supply.save = none ∧ t.core.ent 0x6110 1 = 2 ∧
        t.core.ent 0x6110 5 = v.good ∧ t.core.entBit 0x6100 0 2 = false ∧ t.core.entBit 0x6100 0 4 = false ∧
        t.book = s.book ∧ t.pending = s.pending ∧
        Untouched (fun k => k = entKey 0x6100 0 ∨ (entKey 0x6110 1 ≤ k ∧ k ≤ entKey 0x6110 5)) s t)) ∧
    (s.core.supply.browned = true → Ends .vholdRunsOut s (fun t => AtReset 0 s t))

/-- SAG_DECISION counts and stores; on a rail of the sag set the first of an episode forces the release stages to zero with
record 0x0F01 and begins a save, and VDD_FIELD only counts (R355, R356, R362). BROWN_OUT is followed by a reset of cause 0,
at once where no save is in progress (R359). SAG_RECOVERY ends the episode with record 0x0F02 (R360). The model's own choice:
log entry 107. -/
def Obligations.SagEpisodes : Prop :=
  (∀ (rail : Fin 7) (mv : Nat) (s : State), s.core.phase ≠ .held →
    Ends (.sagDecision rail mv) s (fun t =>
      t.core.ent 0x6102 (rail + 1) = min (s.core.ent 0x6102 (rail + 1) + 1) 0xFFFFFFFF ∧
      t.core.ent 0x6101 (rail + 1) = min 65535 mv ∧
      (rail.val = 6 ∨ s.core.supply.episodeAt ≠ none →
        Moves (fun k => k = entKey 0x6102 (rail + 1) ∨ k = entKey 0x6101 (rail + 1)) s t) ∧
      (rail.val ≠ 6 → s.core.supply.episodeAt = none →
        t.core.supply.episodeAt = some s.core.now ∧ t.core.supply.forced = true ∧ t.core.entBit 0x6100 0 1 = true ∧
        Presents s t 43 0x0F01 (d8 rail ++ d16 (min 65535 mv)) ∧
        (s.core.thermalDown = false → t.core.ent 0x6110 3 = s.core.clock ∧ t.core.ent 0x6110 5 = 0 ∧
          t.core.ent 0x6110 6 = rail ∧ t.core.entBit 0x6100 0 2 = true ∧
          ∃ v, t.core.supply.save = some v ∧ v.slot = (s.nv.saveLast + 1) % 12 ∧ v.next = 0) ∧
        t.book = s.book ∧ t.link = s.link ∧ t.jtag = s.jtag ∧ t.pending = s.pending ∧ Untouched footSupply s t))) ∧
  (∀ (rail : Fin 6) (s : State), s.core.phase ≠ .held →
    Ends (.brownOut rail) s (fun t => (s.core.supply.save = none → AtReset 0 s t) ∧
      (s.core.supply.save ≠ none → t.core.supply.browned = true ∧ t.core.entBit 0x6100 0 0 = false ∧
        Moves (fun k => k = entKey 0x6100 0) s t))) ∧
  (∀ (n : Nat) (s : State), s.core.mayRecover = true → s.core.supply.episodeAt = some n →
    Ends .sagRecovery s (fun t => t.core.supply.episodeAt = none ∧ t.core.entBit 0x6100 0 1 = false ∧
      t.core.ent 0x6106 0 = min (s.core.ent 0x6106 0 + 1) 0xFFFFFFFF ∧ Presents s t 43 0x0F02 (d32 (s.core.now - n)) ∧
      t.book = s.book ∧ t.link = s.link ∧ t.jtag = s.jtag ∧ t.pending = s.pending ∧ Untouched footSupply s t))

/-- HOLDUP_READING stores the reading; hold-up is ready from 3,300 µJ up and stays so down to 3,000 µJ (R357).
FIELD_SUPPLY_LOST and FIELD_SUPPLY_RESTORED: record 0x0F06, the status bits, the encoders' faults, the remote diodes without
a value, and the stop input's 10 s (R362). The model's own choice: log entry 51. -/
def Obligations.SupplyReadings : Prop :=
  (∀ (mv : Nat) (s : State), s.core.awake = true →
    Ends (.holdupReading mv) s (fun t => t.core.ent 0x6101 8 = min 65535 mv ∧
      (let num : Int := 2 * (s.core.ent 0x6104 0 : Int) * ((mv : Int) * mv - 9000000)
       t.core.entBit 0x6100 0 3 = decide ((if s.core.entBit 0x6100 0 3 = true then 3000 else 3300) * 5000000 ≤ num)) ∧
      (t.core.entBit 0x6100 0 3 ≠ s.core.entBit 0x6100 0 3 →
        ∃ e, Presents s t 43 0x0F04 (d8 (if t.core.entBit 0x6100 0 3 = true then 1 else 0) ++ d32 e)) ∧
      Moves (fun k => k = entKey 0x6101 8 ∨ k = entKey 0x6105 0 ∨ k = entKey 0x6100 0) s t)) ∧
  (∀ (mv : Nat) (s : State), s.core.awake = true → s.core.ent 0x6121 0 = 1 →
    Ends (.fieldSupplyLost mv) s (fun t => t.core.ent 0x6121 0 = 0 ∧ t.core.entBit 0x6100 0 5 = false ∧
      t.core.ent 0x6101 7 = min 65535 mv ∧ Presents s t 43 0x0F06 (d8 0 ++ d16 (min 65535 mv)) ∧
      (∀ a, a < 2 → s.core.ent (0x4800 + a * 16) 1 = 1 →
        t.core.ent (0x4801 + a * 16) 3 = 3 ∧ t.core.ent (0x4801 + a * 16) 4 = 3) ∧
      (∀ d, d < 4 → t.core.ent (0x6020 + d) 5 = 0x8000) ∧
      Moves (fun k => k = entKey 0x6121 0 ∨ k = entKey 0x6100 0 ∨ k = entKey 0x6101 7 ∨ footTwoWire k ∨
        k = entKey 0x6200 0 ∨ (entKey 0x4801 0 ≤ k ∧ k < entKey 0x4812 0) ∨
        ∃ d, d < 4 ∧ k = entKey (0x6020 + d) 5) s t)) ∧
  (∀ (mv : Nat) (s : State), s.core.awake = true → s.core.ent 0x6121 0 = 0 →
    Ends (.fieldSupplyRestored mv) s (fun t => t.core.ent 0x6121 0 = 1 ∧ t.core.entBit 0x6100 0 5 = true ∧
      t.core.ent 0x6101 7 = min 65535 mv ∧ Presents s t 43 0x0F06 (d8 1 ++ d16 (min 65535 mv)) ∧
      (s.core.ent 0x3103 3 ≠ 0 → t.core.guard.netAt = s.core.now) ∧
      Moves (fun k => k = entKey 0x6121 0 ∨ k = entKey 0x6100 0 ∨ k = entKey 0x6101 7 ∨ footTwoWire k ∨
        k = entKey 0x6200 0) s t))

/-- SOURCE_QUALIFIED and SOURCE_LOST: the sources qualified, the source in use by the order of 0x1223, the time status, and
the clock step of a first qualification (R53 to R55). TIME_HOLDOVER_EXPIRY: LOST with record 0x0205 (R53). The model's own
choices: log entries 52, 138. -/
def Obligations.TimeSources : Prop :=
  (∀ (src : Fin 3) (time : Tick64) (s : State), s.core.awake = true → s.core.entBit 0x1201 0 0 = true →
    s.core.canQualify (src + 1) = true → (s.core.timeUncommon = true → 16 ≤ s.core.time.inPhase) →
    Ends (.sourceQualified src time) s (fun t =>
      let code := src.val + 1
      let best := s.core.bestSource (s.core.time.qualified ++ [code])
      (code ∈ s.core.time.qualified → Moves (fun _ => False) s t ∧ t.core.time = s.core.time) ∧
      (code ∉ s.core.time.qualified → t.core.time.qualified = s.core.time.qualified ++ [code] ∧
        (best = 0 → Moves (fun k => k = entKey 0x5100 0) s t) ∧
        (best ≠ 0 → t.core.ent 0x1221 0 = 2 ∧ t.core.ent 0x1222 0 = best ∧
          t.core.clock = (if best = code ∧ s.core.timeUncommon = true ∧ s.core.ent 0x110A 0 = 0
            then s.core.sourceCount code time.toNat else s.core.clock) ∧
          Moves (fun k => footTime k ∨ footStep k ∨ k = entKey 0x5100 0) s t)))) ∧
  (∀ (src : Fin 3) (s : State), s.core.awake = true →
    Ends (.sourceLost src) s (fun t =>
      let code := src.val + 1
      let best := s.core.bestSource (s.core.time.qualified.filter (· ≠ code))
      (code ∉ s.core.time.qualified → Moves (fun _ => False) s t) ∧
      (code ∈ s.core.time.qualified → t.core.time.qualified = s.core.time.qualified.filter (· ≠ code) ∧
        (s.core.ent 0x1222 0 ≠ code → Moves (fun k => k = entKey 0x5100 0) s t) ∧
        (s.core.ent 0x1222 0 = code → t.core.ent 0x1222 0 = best ∧
          t.core.ent 0x1221 0 = (if best = 0 ∧ s.core.ent 0x1221 0 = 2 then 3 else s.core.ent 0x1221 0) ∧
          Moves (fun k => footTime k ∨ k = entKey 0x5100 0) s t)))) ∧
  (∀ (s : State), s.core.ent 0x1221 0 = 3 → s.core.reached s.core.time.holdoverAt = true →
    Ends .timeHoldoverExpiry s (fun t => t.core.ent 0x1221 0 = 4 ∧ t.core.ent 0x1222 0 = s.core.ent 0x1222 0 ∧
      Presents s t 1 0x0205 (d8 3 ++ d8 4 ++ d8 (s.core.ent 0x1222 0)) ∧ Moves footTime s t))

/-- TIME_SET_AT_PPS arms a load for 2 s, TIME_SET_TIMEOUT gives it up, and TIME_SET_NOW loads at once with record 0x0206 unless
a path is live (R55). -/
def Obligations.TimeSetting : Prop :=
  (∀ (o : Origin) (s : State), Accepts s o 0x1227 2 (d8 1) →
    Ends (.timeSetAtPps o) s (fun t => t.core.ent 0x1227 2 = 1 ∧
      t.core.time.setDeadline = some (s.core.now + 2 * second) ∧ Writes (fun k => k = entKey 0x1227 2) s t)) ∧
  (∀ (o : Origin) (s : State), Accepts s o 0x1227 2 (d8 2) →
    Ends (.timeSetNow o) s (fun t =>
      (s.core.ent 0x110A 0 ≠ 0 → t.core.ent 0x1227 2 = 3 ∧ t.core.clock = s.core.clock ∧
        Writes (fun k => k = entKey 0x1227 2) s t) ∧
      (s.core.ent 0x110A 0 = 0 → t.core.ent 0x1227 2 = 0 ∧ t.core.clock = s.core.ent 0x1227 1 % 2 ^ 64 ∧
        t.core.time.setDeadline = none ∧ t.core.ent 0x1228 0 = min (s.core.ent 0x1228 0 + 1) 0xFFFFFFFF ∧
        (∃ e ∈ t.core.presented, e.source = 1 ∧ e.code = 0x0206 ∧ e.stamp = t.core.clock ∧
          e.data = padTo 12 (dS64 (sInt 64 ((s.core.ent 0x1227 1 + 2 ^ 64 - s.core.clock) % 2 ^ 64)) ++ d8 4)) ∧
        Writes (fun k => footStep k ∨ k = entKey 0x1227 2) s t))) ∧
  (∀ (s : State), s.core.reached s.core.time.setDeadline = true →
    Ends .timeSetTimeout s (fun t => t.core.ent 0x1227 2 = 2 ∧ t.core.time.setDeadline = none ∧
      Moves (fun k => k = entKey 0x1227 2) s t))

/-- PPS_IN_EDGE, where PPS_IN is listed or a load is armed: an edge outside the window is counted, one inside is taken with its
stamp, and an armed load is carried out (R55, R56); the same edge again changes nothing. PPS_IN_LOST, once three predicted edges
are missing, drops the source (R56). PPS_OUT_RISE, on a whole second less the offset while PPS_OUT is enabled and allowed, and
PPS_OUT_FALL, at the end of the pulse, drive the pin (R57). -/
def Obligations.PulsePerSecond : Prop :=
  (∀ (s : State), s.core.awake = true → (2 ∈ s.core.sourceOrder ∨ s.core.time.setDeadline ≠ none) →
    Ends .ppsInEdge s (fun t =>
      let stamp : Int := (s.core.clock : Int) - s.core.entS 16 0x122C 0
      let err := match s.core.time.ppsLast with | some l => fromSecond (stamp - (l : Int)) | none => 0
      let outside := (s.core.ent 0x122B 0 : Int) < err ∨ err < -(s.core.ent 0x122B 0 : Int)
      (outside → t.core.ent 0x122A 0 = min (s.core.ent 0x122A 0 + 1) 0xFFFFFFFF ∧ t.core.time.ppsAccepted = 0 ∧
        t.core.time.ppsLast = s.core.time.ppsLast ∧ Moves (fun k => k = entKey 0x122A 0) s t) ∧
      (¬ outside → s.core.time.ppsLast = some (wrapClock stamp) → t = s) ∧
      (¬ outside → s.core.time.ppsLast ≠ some (wrapClock stamp) →
        t.core.time.ppsAccepted = s.core.time.ppsAccepted + 1 ∧
        (s.core.time.setDeadline = none → t.core.time.ppsLast = some (wrapClock stamp) ∧ t.core.clock = s.core.clock ∧
          Moves (fun k => footTime k ∨ k = entKey 0x1225 0) s t) ∧
        (s.core.time.setDeadline ≠ none → t.core.time.setDeadline = none ∧
          ((t.core.ent 0x1227 2 = 0 ∧ t.core.clock = s.core.ent 0x1227 1 % 2 ^ 64) ∨
            (t.core.ent 0x1227 2 = 3 ∧ t.core.clock = s.core.clock)) ∧
          Moves (fun k => footTime k ∨ footStep k ∨ k = entKey 0x1225 0 ∨ k = entKey 0x1227 2) s t)))) ∧
  (∀ (l : Nat) (s : State), s.core.time.ppsLast = some l →
    ((l + 3 * second + s.core.ent 0x122B 0 : Nat) : Int) < (s.core.clock : Int) - s.core.entS 16 0x122C 0 →
    Ends .ppsInLost s (fun t => t.core.time.ppsLast = none ∧ t.core.time.ppsAccepted = 0 ∧
      2 ∉ t.core.time.qualified ∧ Moves footTime s t)) ∧
  (∀ (s : State), s.core.awake = true → s.core.entBit 0x122D 0 0 = true →
    (s.core.ent 0x1221 0 = 2 ∨ s.core.ent 0x1221 0 = 3 ∨ s.core.entBit 0x122D 0 1 = true) →
    ((s.core.clock : Int) - s.core.entS 32 0x122E 0) % 491520000 = 0 →
    Ends .ppsOutRise s (fun t => t.core.time.ppsOut = true ∧
      t.core.time.ppsFall = some (s.core.now + s.core.ent 0x122F 0) ∧ Moves (fun _ => False) s t)) ∧
  (∀ (s : State), s.core.reached s.core.time.ppsFall = true →
    Ends .ppsOutFall s (fun t => t.core.time.ppsOut = false ∧ t.core.time.ppsFall = none ∧ Moves (fun _ => False) s t))

/-- REFTUNE_UPDATE: the code written is the base in mode 2, the sum of base, loop in codes and compensation held to 16 bits in
mode 1, and unchanged in mode 0 (R58). SLACK_WINDOW_END reports each path's least slack, 0 where a sample came late, and starts again
(R62). -/
def Obligations.ReftuneAndSlack : Prop :=
  (∀ (s : State), s.core.awake = true → s.core.time.reftuneNext ≤ s.core.now →
    Ends .reftuneUpdate s (fun t => t.core.time.reftuneNext = s.core.now + ms ∧
      (s.core.ent 0x1230 1 = 2 → t.core.time.reftune = s.core.ent 0x1230 2 ∧ t.core.ent 0x1230 8 = 1) ∧
      (s.core.ent 0x1230 1 = 0 → t.core.time.reftune = s.core.time.reftune ∧
        t.core.ent 0x1230 8 = s.core.ent 0x1230 8) ∧
      (s.core.ent 0x1230 1 = 1 →
        let sum : Int := (s.core.time.reftuneBase : Int) + t.core.loopCodes + s.core.entS 16 0x1230 7
        (t.core.time.reftune : Int) = clampI 0 65535 sum ∧
          t.core.ent 0x1230 8 = (if clampI 0 65535 sum = sum then 1 else 2)) ∧
      Moves (fun k => k = entKey 0x1225 0 ∨ k = entKey 0x1226 0 ∨ k = entKey 0x1201 0 ∨ k = entKey 0x1230 8) s t)) ∧
  (∀ (s : State), s.core.awake = true → s.core.clock % 491520 = 0 →
    Ends .slackWindowEnd s (fun t => t.core.ent 0x2884 0 = (s.core.ent 0x2884 0 + 1) % 2 ^ 32 ∧
      (∀ p, p < 32 → t.core.ent 0x2880 (p + 1) =
          (if (s.core.path p).lateWindow ≠ 0 then 0
           else match (s.core.path p).minSlack with | some v => rawOf 16 (clampI (-32767) 32767 v) | none => 0x8000) ∧
        (t.core.path p).lateWindow = 0 ∧ (t.core.path p).minSlack = none ∧
        ((s.core.path p).lateWindow ≠ 0 → Presents s t (2 + p) 0x0210 (d32 (s.core.path p).lateWindow))) ∧
      Moves (fun k => (entKey 0x2880 1 ≤ k ∧ k ≤ entKey 0x2881 32) ∨ k = entKey 0x2884 0 ∨ k = entKey 0x3180 5 ∨
        k = entKey 0x1134 0) s t))

/-- LO_FREQUENCY_WRITE turns an LO off, starts its retune, or holds the frequency while it is busy; LO_CALIBRATION starts a
band calibration, is held while a retune or calibration runs, or is refused on an LO that is off (R48, R49, R51). The model's
own choice: log entry 54. -/
def Obligations.LoWrites : Prop :=
  (∀ (o : Origin) (l : Fin 2) (v : Word) (s : State), Accepts s o (0x1210 + l) 1 (d32 v.toNat) → s.core.shared = false →
    Ends (.loFrequencyWrite o l v) s (fun t => t.core.ent (0x1210 + l) 1 = v.toNat ∧
      (s.core.loBusy l = true → (t.core.lo l).held = some v.toNat ∧
        Writes (fun k => k = entKey (0x1210 + l) 1) s t) ∧
      (s.core.loBusy l = false → v.toNat = 0 → t.core.lo l = LoSt.init ∧ t.core.ent (0x1210 + l) 3 = 0 ∧
        t.core.ent (0x1210 + l) 8 = 0) ∧
      (s.core.loBusy l = false → v.toNat ≠ 0 → (t.core.lo l).freq = v.toNat ∧ t.core.ent (0x1210 + l) 3 = 4 ∧
        t.core.ent (0x1210 + l) 5 = min (s.core.ent (0x1210 + l) 5 + 1) 0xFFFFFFFF) ∧
      (s.core.loBusy l = false → Presents s t 1 0x0203 (d8 l ++ d32 (maskOf (s.core.loPaths l)))) ∧
      Writes (fun k => footLo l k ∨ k = entKey (0x1210 + l) 1) s t)) ∧
  (∀ (o : Origin) (l : Fin 2) (s : State), Accepts s o (0x1210 + l) 6 (d8 1) →
    Ends (.loCalibration o l 1) s (fun t =>
      ((s.core.lo l).freq = 0 → t.core.ent (0x1210 + l) 6 = 2 ∧ Writes (fun k => k = entKey (0x1210 + l) 6) s t) ∧
      ((s.core.lo l).freq ≠ 0 → t.core.ent (0x1210 + l) 6 = 1 ∧
        (s.core.loBusy l = true → (t.core.lo l).calPending = true ∧
          Writes (fun k => k = entKey (0x1210 + l) 6) s t) ∧
        (s.core.loBusy l = false → t.core.ent (0x1210 + l) 3 = 2 ∧ Writes (footLo l) s t))))

/-- LO_LOCK: the realised frequency lies within 0.029 Hz of the one asked for and record 0x0204 names the paths, or the work
held starts; LO_LOCK_OVERDUE and LO_LOCK_LOSS report with record 0x0203 (R50, R51). The model's own choice: log entry 54. -/
def Obligations.LoMoments : Prop :=
  (∀ (l : Fin 2) (s : State), s.core.awake = true → (s.core.lo l).freq ≠ 0 → s.core.entBit (0x1210 + l) 3 0 = false →
    Ends (.loLock l) s (fun t => Moves (footLo l) s t ∧
      (s.core.entBit (0x1210 + l) 3 1 = true → (s.core.lo l).held = none → (s.core.lo l).calPending = false →
        t.core.ent (0x1210 + l) 6 = 0) ∧
      (∀ v, (s.core.lo l).held = some v → v ≠ 0 → t.core.ent (0x1210 + l) 3 = 4 ∧ (t.core.lo l).freq = v) ∧
      ((s.core.lo l).held = none → (s.core.lo l).calPending = true →
        t.core.ent (0x1210 + l) 3 = 2 ∧ (t.core.lo l).calPending = false) ∧
      ((s.core.lo l).held = none → (s.core.lo l).calPending = false → t.core.ent (0x1210 + l) 3 = 1 ∧
        t.core.ent (0x1210 + l) 8 ≤ (s.core.lo l).freq * 1000000 + 29 ∧
        (s.core.lo l).freq * 1000000 ≤ t.core.ent (0x1210 + l) 8 + 29 ∧
        Presents s t 1 0x0204 (d8 l ++ d32 (maskOf (s.core.loPaths l)))))) ∧
  (∀ (l : Fin 2) (s : State), s.core.reached (s.core.lo l).deadline = true → s.core.entBit (0x1210 + l) 3 0 = false →
    Ends (.loLockOverdue l) s (fun t => t.core.entBit (0x1210 + l) 3 3 = true ∧ (t.core.lo l).deadline = none ∧
      t.core.ent (0x1210 + l) 6 = (if s.core.entBit (0x1210 + l) 3 1 = true then 2 else s.core.ent (0x1210 + l) 6) ∧
      Presents s t 1 0x0203 (d8 l ++ d32 (maskOf (s.core.loPaths l))) ∧
      Moves (fun k => k = entKey (0x1210 + l) 3 ∨ k = entKey (0x1210 + l) 6) s t)) ∧
  (∀ (l : Fin 2) (s : State), s.core.awake = true → s.core.entBit (0x1210 + l) 3 0 = true →
    Ends (.loLockLoss l) s (fun t => t.core.entBit (0x1210 + l) 3 0 = false ∧
      t.core.ent (0x1210 + l) 4 = min (s.core.ent (0x1210 + l) 4 + 1) 0xFFFFFFFF ∧
      Presents s t 1 0x0203 (d8 l ++ d32 (maskOf (s.core.loPaths l))) ∧ Moves (footLo l) s t))

/-- HK_TRIGGER and HK_TRIGGER_COMMAND: an idle sequence becomes pending or runs, a running one holds one trigger, and any other
is counted (R373, R374). HK_RUN_COMPLETE counts the run and lets a held trigger follow (R373). HK_URGENT_REQUEST queues a
conversion, four at most; HK_MARK puts a mark into the buffer, at the end of the slot in progress where one runs (R375, R380,
R381). -/
def Obligations.HousekeepingTriggers : Prop :=
  let takes : Nat → State → State → Prop := fun q s t =>
    (s.core.hkState q = 0 → t.core.hkState q = 1 ∨ t.core.hkState q = 2) ∧
    (s.core.hkState q = 0 → (∀ x, s.core.hk.slot = some x → x.start < s.core.now) → s.core.hk.slot ≠ none → t.core.hkState q = 1) ∧
    (s.core.hkState q = 2 → t.core.hkState q = 3) ∧
    (s.core.hkState q = 1 ∨ s.core.hkState q = 3 →
      t.core.ent (0x6210 + q) 7 = min (s.core.ent (0x6210 + q) 7 + 1) 0xFFFFFFFF) ∧
    (s.core.hkState q = 0 ∨ s.core.hkState q = 2 → t.core.ent (0x6210 + q) 7 = s.core.ent (0x6210 + q) 7)
  (∀ (q : Fin 4) (s : State), s.core.hkFires q = true → (∀ r, s.core.hk.run = some r → r.q < 4) →
    Ends (.hkTrigger q) s (fun t => takes q s t ∧ Moves (fun k => footHk k ∨ k = entKey (0x6210 + q) 7) s t)) ∧
  (∀ (o : Origin) (q : Fin 4) (s : State), Accepts s o (0x6210 + q) 8 (d8 1) → (∀ r, s.core.hk.run = some r → r.q < 4) →
    Ends (.hkTriggerCommand o q 1) s (fun t =>
      (s.core.ent (0x6210 + q) 1 = 0 → t.core.ent (0x6210 + q) 8 = 1 ∧
        Writes (fun k => k = entKey (0x6210 + q) 8) s t) ∧
      (s.core.ent (0x6210 + q) 1 ≠ 0 → t.core.ent (0x6210 + q) 8 = 0 ∧ takes q s t ∧
        Writes (fun k => footHk k ∨ k = entKey (0x6210 + q) 7 ∨ k = entKey (0x6210 + q) 8) s t))) ∧
  (∀ (r : HkRun) (s : State), s.core.hk.run = some r → s.core.hkRunDone = true → r.q < 4 →
    Ends .hkRunComplete s (fun t =>
      t.core.ent (0x6210 + r.q) 6 = (s.core.ent (0x6210 + r.q) 6 + 1) % 2 ^ 32 ∧
      (s.core.hkState r.q ≠ 3 → t.core.hkState r.q = 0) ∧
      (s.core.hkState r.q = 3 → t.core.hkState r.q = 1 ∨ t.core.hkState r.q = 2) ∧
      Moves (fun k => footHk k ∨ ∃ j, j < 4 ∧ (k = entKey (0x6210 + j) 6 ∨ k = entKey (0x6210 + j) 7)) s t)) ∧
  ((∀ (o : Origin) (ch : Byte) (s : State), Accepts s o 0x6203 1 (d8 ch.toNat) → ch.toNat ≤ 58 →
    Ends (.hkUrgentRequest o ch) s (fun t =>
      (4 ≤ s.core.hk.urgent.length → t.core.ent 0x6203 1 = 2 ∧ t.core.hk = s.core.hk ∧
        Writes (fun k => k = entKey 0x6203 1) s t) ∧
      (s.core.hk.urgent.length < 4 → t.core.ent 0x6203 1 = 1 ∧ t.core.hk.urgent = s.core.hk.urgent ++ [ch.toNat] ∧
        (s.core.hk.run = none → t.core.hk.slot ≠ none) ∧
        Writes (fun k => footHk k ∨ k = entKey 0x6203 1 ∨
          ∃ r, s.core.hk.run = some r ∧ k = entKey (0x6210 + r.q) 5) s t))) ∧
  (∀ (o : Origin) (v : Half) (s : State), Accepts s o 0x6222 0 (d16 v.toNat) →
    let during := ∃ x, s.core.hk.slot = some x ∧ x.start ≤ s.core.now
    Ends (.hkMark o v) s (fun t =>
      (during → t.core.hk.marks = s.core.hk.marks ++ [(v.toNat, s.core.clock)] ∧ Writes (fun _ => False) s t) ∧
      (¬ during → t.core.hk.buffer.get (fun _ => 0) (s.core.ent 0x6220 1) =
          ofLe (hkEntry v.toNat 0 false false 0 false true false false 0 0 s.core.clock) ∧
        t.core.ent 0x6220 1 = (s.core.ent 0x6220 1 + 1) % 4096 ∧
        (s.core.ent 0x6220 4 = 4096 → t.core.ent 0x6220 3 = (s.core.ent 0x6220 3 + 1) % 4096 ∧
          t.core.ent 0x6220 5 = min (s.core.ent 0x6220 5 + 1) 0xFFFFFFFF) ∧
        (s.core.ent 0x6220 4 ≠ 4096 → t.core.ent 0x6220 4 = s.core.ent 0x6220 4 + 1) ∧
        Writes (fun k => entKey 0x6220 1 ≤ k ∧ k ≤ entKey 0x6220 5) s t))))

/-- HK_CONVERSION: a value slot's code, count and place in the buffer, and an urgent slot's results. A check slot moves the
channel's open-wire state at bit 1 of 0x6231: set on the first check that finds the input open, cleared after two consecutive
checks that find it connected; each change counts at 0x6233 and writes record 0x1001 (R378). -/
def Obligations.HousekeepingConversion : Prop :=
  ∀ (uv : Nat) (x : HkSlot) (s : State), s.core.hk.slot = some x → x.start + 244 ≤ s.core.now → x.channel < 59 →
    let noValue := s.core.ent 0x6121 0 = 0 ∧ 32 ≤ x.channel ∧ x.channel < 48
    let code := if noValue then 0 else hkCode x.channel uv
    Ends (.hkConversion uv) s (fun t =>
      (x.kind = .urgent ∨ (x.kind = .value ∧ s.core.hk.run ≠ none) → t.core.ent 0x6230 (x.channel + 1) = code ∧
        t.core.ent 0x6232 (x.channel + 1) = (s.core.ent 0x6232 (x.channel + 1) + 1) % 2 ^ 16 ∧
        t.core.entBit 0x6231 (x.channel + 1) 2 = decide noValue ∧
        t.core.ent 0x6220 1 = (s.core.ent 0x6220 1 + 1 + s.core.hk.marks.length) % 4096) ∧ t.core.hk.marks = [] ∧
      (x.kind = .urgent → t.core.ent 0x6203 2 = code ∧ t.core.ent 0x6203 3 = x.sample ∧
        t.core.hk.urgent = s.core.hk.urgent.tail ∧
        t.core.ent 0x6203 1 = (if s.core.hk.urgent.tail = [] then 0 else 1)) ∧
      (∀ r, x.kind = .check → s.core.hk.run = some r → ¬ noValue →
        let opened := if stepCurrent (r.steps.getD r.k 0) = 1 then s.core.ent 0x6202 1 ≤ code else code ≤ s.core.ent 0x6202 2
        let was := s.core.entBit 0x6231 (x.channel + 1) 1
        let is := t.core.entBit 0x6231 (x.channel + 1) 1
        let inRow := s.core.hk.connected.get (fun _ => 0) x.channel
        (opened → is = true ∧ t.core.hk.connected.get (fun _ => 0) x.channel = 0) ∧
        (¬ opened → is = (if 1 ≤ inRow then false else was) ∧
          t.core.hk.connected.get (fun _ => 0) x.channel = inRow + 1) ∧
        (is ≠ was → t.core.ent 0x6233 (x.channel + 1) = min (s.core.ent 0x6233 (x.channel + 1) + 1) 0xFFFFFFFF ∧
          Presents s t 44 0x1001 (d8 x.channel ++ d16 code)) ∧
        (is = was → t.core.ent 0x6233 (x.channel + 1) = s.core.ent 0x6233 (x.channel + 1))) ∧
      Moves (fun k => footFabric k ∨ (entKey 0x3140 0 ≤ k ∧ k < entKey 0x3148 0) ∨
        (entKey 0x6200 0 ≤ k ∧ k < entKey 0x6234 0)) s t)

/-- TW_BUS_CHECK, SCL_TIMEOUT, once SCL can have been low for the timeout, and SCL_RISE: the levels found, and where the channel
goes; a bus found free waits for the time of R387 before a START (R387, R389, R390). The model's own choice: log entry 118. -/
def Obligations.TwoWireBus : Prop :=
  (∀ (c : Fin 4) (scl sda : Bool) (s : State), s.core.phase = .ready → s.core.twState c = 1 →
    (s.core.twc c).checked = false → (s.core.twc c).checkAt ≤ s.core.now →
    Ends (.twBusCheck c scl sda) s (fun t =>
      t.core.entBit (0x6320 + c) 2 0 = scl ∧ t.core.entBit (0x6320 + c) 2 1 = sda ∧
      (scl = false → (t.core.twc c).checked = false ∧ Moves (fun k => k = entKey (0x6320 + c) 2) s t) ∧
      (scl = true → (t.core.twc c).checked = true ∧
        (sda = false → t.core.twState c = 3) ∧
        (sda = true → t.core.twState c = 1 ∧ (t.core.twc c).freeAt = s.core.now + twFree (s.core.twc c).speed) ∧
        Moves (fun k => k = entKey (0x6320 + c) 1 ∨ k = entKey (0x6320 + c) 2) s t))) ∧
  (∀ (c : Fin 4) (sda : Bool) (s : State), (s.core.twState c = 1 ∨ s.core.twState c = 2 ∨ s.core.twState c = 3) →
    (s.core.twc c).highAt + s.core.ent (0x6300 + c) 3 * ms < s.core.now →
    Ends (.sclTimeout c sda) s (fun t => (t.core.twc c).running = none ∧
      t.core.entBit (0x6320 + c) 2 0 = false ∧ t.core.entBit (0x6320 + c) 2 1 = sda ∧
      t.core.entBit (0x6320 + c) 2 3 = true ∧
      t.core.ent (0x6320 + c) 5 = min (s.core.ent (0x6320 + c) 5 + 1) 0xFFFFFFFF ∧
      (c.val < 2 → t.core.twState c = 6 ∧ Presents s t (45 + c) 0x1104 (d8 1)) ∧
      Presents s t (45 + c) 0x1101 (d8 (if sda = true then 1 else 0)) ∧ Moves footTwoWire s t)) ∧
  (∀ (c : Fin 4) (sda : Bool) (s : State), s.core.twState c = 4 →
    Ends (.sclRise c sda) s (fun t => t.core.entBit (0x6320 + c) 2 0 = true ∧ t.core.entBit (0x6320 + c) 2 1 = sda ∧
      (sda = false → t.core.twState c = 3 ∧ (t.core.twc c).checked = true ∧
        Moves (fun k => k = entKey (0x6320 + c) 1 ∨ k = entKey (0x6320 + c) 2) s t) ∧
      (sda = true → Moves footTwoWire s t)))

/-- TW_TRANSFER_COMMAND queues the host's transfer, or is refused; TW_TRANSFER_DONE, once the clocks that the outcome takes have
passed, shows its result, its bytes and its tick (R387, R388, R393). The model's own choice: log entry 118. -/
def Obligations.TwoWireTransfers : Prop :=
  (∀ (o : Origin) (c : Fin 4) (s : State), Accepts s o (0x6310 + c) 5 (d8 1) →
    Ends (.twTransferCommand o c 1) s (fun t =>
      (s.core.ent (0x6310 + c) 5 = 1 → Writes (fun _ => False) s t) ∧
      (s.core.ent (0x6310 + c) 5 ≠ 1 → s.core.twState c = 0 ∨ s.core.twState c = 5 ∨ s.core.twState c = 7 →
        t.core.ent (0x6310 + c) 5 = 7 ∧ Writes (fun k => k = entKey (0x6310 + c) 5) s t) ∧
      (s.core.ent (0x6310 + c) 5 ≠ 1 → s.core.twState c ≠ 0 → s.core.twState c ≠ 5 → s.core.twState c ≠ 7 →
        t.core.ent (0x6310 + c) 5 = 1 ∧ (TwItem.host ∈ (t.core.twc c).queue ∨ (t.core.twc c).running = some .host) ∧
        Writes (fun k => k = entKey (0x6310 + c) 5 ∨ k = entKey (0x6320 + c) 1) s t))) ∧
  (∀ (c : Fin 4) (r : TwOutcome) (i : TwItem) (s : State), (s.core.twc c).running = some i →
    (s.core.twc c).over r s.core.now = true →
    Ends (.twTransferDone c r) s (fun t => Moves footTwoWire s t ∧
      (∀ l, r = .done l → t.core.ent (0x6320 + c) 3 = (s.core.ent (0x6320 + c) 3 + 1) % 2 ^ 32 ∧
        (i = .host → t.core.ent (0x6310 + c) 6 = ofLe (padTo 32 (l.take (s.core.ent (0x6310 + c) 4))) ∧
          t.core.ent (0x6310 + c) 7 = s.core.ent (0x6310 + c) 2 ∧ t.core.ent (0x6310 + c) 8 = s.core.clock)) ∧
      (r = .addressNack → t.core.ent (0x6320 + c) 4 = min (s.core.ent (0x6320 + c) 4 + 1) 0xFFFFFFFF) ∧
      (∀ n, r = .dataNack n → t.core.ent (0x6320 + c) 4 = min (s.core.ent (0x6320 + c) 4 + 1) 0xFFFFFFFF ∧
        (i = .host → t.core.ent (0x6310 + c) 7 = min n (s.core.ent (0x6310 + c) 2))) ∧
      (∀ b k h, r = .busError b k h → t.core.ent (0x6320 + c) 8 = min (s.core.ent (0x6320 + c) 8 + 1) 0xFFFFFFFF ∧
        t.core.entBit (0x6320 + c) 2 1 = h ∧ Presents s t (45 + c) 0x1105 (d8 b ++ d8 k)) ∧
      (i = .host → TwItem.host ∉ (s.core.twc c).queue → t.core.ent (0x6310 + c) 5 =
        (match r with | .done _ => 0 | .addressNack => 2 | .dataNack _ => 3 | .busError _ _ _ => 6))))

/-- NINE_CLOCK_RECOVERY and SDA_STUCK_RETRY, once their clocks have passed: the run is counted and recorded, a line that is free lets the channel go on, and
a stuck one is pulsed once, where the channel has a reset line, and then tried again every second (R391, R392).
TW_RESET_COMMAND pulses an idle channel's reset line; TW_RESET_DONE lets the channel go on where the pulse found it (R392).
The model's own choices: log entries 114, 118. -/
def Obligations.TwoWireRecovery : Prop :=
  (∀ (c : Fin 4) (n : Nat) (high : Bool) (s : State),
      let runs : State → Prop := fun t =>
        t.core.ent (0x6320 + c) 6 = min (s.core.ent (0x6320 + c) 6 + 1) 0xFFFFFFFF ∧
        t.core.entBit (0x6320 + c) 2 1 = high ∧ t.core.entBit (0x6320 + c) 2 2 = !high ∧
        Presents s t (45 + c) 0x1102 (d8 (clampN 1 9 n) ++ d8 (if high = true then 0 else 5)) ∧
        (high = true → (t.core.twc c).retryAt = none) ∧
        (high = false → t.core.ent (0x6320 + c) 7 = min (s.core.ent (0x6320 + c) 7 + 1) 0xFFFFFFFF ∧
          (s.core.entBit (0x6320 + c) 2 2 = false → Presents s t (45 + c) 0x1103 [])) ∧
        Moves footTwoWire s t
      let spent := (s.core.twc c).clocked (nineClocksOf n high) s.core.now = true
      (s.core.twState c = 3 → spent → Ends (.nineClockRecovery c n high) s (fun t => runs t ∧
        (high = false → t.core.twState c = (if s.core.entBit (0x6320 + c) 2 2 = false ∧ c.val < 2 then 6 else 5)))) ∧
      (s.core.twState c = 5 → s.core.reached (s.core.twc c).retryAt = true → spent →
        Ends (.sdaStuckRetry c n high) s (fun t => runs t ∧
          (high = false → t.core.twState c = 5 ∧ (t.core.twc c).retryAt = some (s.core.now + second))))) ∧
  ((∀ (o : Origin) (c : Fin 4) (s : State), Accepts s o (0x6300 + c) 6 (d8 1) →
      let busy := s.core.twState c = 2 ∨ s.core.twState c = 3 ∨ s.core.twState c = 6
      Ends (.twResetCommand o c 1) s (fun t =>
        (busy → t.core.ent (0x6300 + c) 6 = 2 ∧ Writes (fun k => k = entKey (0x6300 + c) 6) s t) ∧
        (¬ busy → t.core.ent (0x6300 + c) 6 = 1 ∧ t.core.twState c = 6 ∧
          t.core.ent (0x6320 + c) 9 = min (s.core.ent (0x6320 + c) 9 + 1) 0xFFFFFFFF ∧
          (t.core.twc c).lineLowUntil = s.core.now + usTicks (s.core.ent (0x6300 + c) 4) ∧
          Presents s t (45 + c) 0x1104 (d8 3) ∧
          Writes (fun k => k = entKey (0x6300 + c) 6 ∨ k = entKey (0x6320 + c) 1 ∨ k = entKey (0x6320 + c) 9) s t))) ∧
    (∀ (c : Fin 4) (s : State), s.core.twState c = 6 → s.core.reached (s.core.twc c).pulseEnd = true →
      Ends (.twResetDone c) s (fun t => (t.core.twc c).pulseEnd = none ∧
        t.core.ent (0x6300 + c) 6 = (if (s.core.twc c).pulseCause = 3 then 0 else s.core.ent (0x6300 + c) 6) ∧
        t.core.twState c = (if (s.core.twc c).on = false then 0
          else if (s.core.twc c).pulseCause = 2 ∨ s.core.entBit (0x6320 + c) 2 2 = true then 3
          else if s.core.entBit (0x6320 + c) 2 3 = true ∧ s.core.entBit (0x6320 + c) 2 0 = false then 4 else 1) ∧
        Moves (fun k => k = entKey (0x6300 + c) 6 ∨ k = entKey (0x6320 + c) 1) s t)))

/-- ENTRY_WRITE: a request that cannot be taken waits; one that fails R309 changes its counters only; a STAGED write joins the
pending set of its first writer (R315); a LIVE write takes effect at once, or on both chips of a pair at its effect tick (R260). A command
entry refuses every value but those its table lists and changes nothing (R309). -/
def Obligations.EntryWrites : Prop :=
  (∀ (o : Origin) (i : Half) (sub : Byte) (v : List Byte) (s : State),
    let k := entKey i.toNat sub.toNat
    let w := cleanValue i.toNat sub.toNat (ofLe v)
    let code := (s.core.touchOwner o).writeCheck o i.toNat sub.toNat v
    (s.canServe o 0 = false → Ends (.entryWrite o i sub v) s (fun t => t = s)) ∧
    (s.canServe o 0 = true → code ≠ 0 → Ends (.entryWrite o i sub v) s (fun t =>
      t.core.ent 0x1133 2 = min (s.core.ent 0x1133 2 + 1) 0xFFFFFFFF ∧ t.core.pend = s.core.pend ∧
      Writes (fun _ => False) s t)) ∧
    (∀ (r : Row), Accepts s o i.toNat sub.toNat v → rowOf i.toNat sub.toNat = some r → (ownAct o i.toNat sub.toNat v).isNone →
      Ends (.entryWrite o i sub v) s (fun t =>
        (r.staged = true → s.core.isStandby = false → k ≠ entKey 0x5101 3 →
          (s.core.pend ≠ [] → s.core.ent 0x1104 4 ≠ originator o → t.core.pend = s.core.pend ∧ Writes (fun _ => False) s t) ∧
          (s.core.pend = [] ∨ s.core.ent 0x1104 4 = originator o →
            t.core.pend = s.core.pend.insert k w ∧ t.core.pend.find? k = some w ∧
            t.core.ent 0x1104 3 = t.core.pend.length ∧ t.core.ent 0x1104 4 = originator o ∧
            (r.acc = .rwd → Presents s t 40 0x0C02 (d16 i.toNat ++ d8 sub.toNat ++ d8 0 ++ d32 (originator o) ++ d16 o.tag.toNat)) ∧
            Writes (fun x => x = entKey 0x1104 3 ∨ x = entKey 0x1104 4) s t)) ∧
        (r.staged = false → s.core.liveRefusal i.toNat sub.toNat w ≠ 0 → Writes (fun _ => False) s t) ∧
        (r.staged = false → s.core.liveRefusal i.toNat sub.toNat w = 0 → s.core.shared = true → mirrored i.toNat sub.toNat = true →
          t.core.later = s.core.later ++ [(ceilMul 256 (s.core.clock + 1024), k, w)] ∧ Writes (fun _ => False) s t) ∧
        (r.staged = false → s.core.liveRefusal i.toNat sub.toNat w = 0 → s.core.shared = false →
          ((canon i.toNat).1, sub.toNat) ∉ [(0x1223, 1), (0x1223, 2), (0x1223, 3), (0x2002, 1), (0x201C, 2), (0x2021, 1),
            (0x2021, 5), (0x3110, 4), (0x3140, 1), (0x6010, 1), (0x6010, 2), (0x6010, 4), (0x6220, 3)] →
          t.core.ent i.toNat sub.toNat = cleanValue i.toNat sub.toNat w ∧ Writes (fun x => x = k) s t)))) ∧
  (∀ (o : Origin) (v : Byte) (s : State),
    let refuses : Nat → Nat → Instr → Prop := fun i sub c =>
      Accepts s o i sub (d8 v.toNat) → Ends c s (fun t => t.core.pend = s.core.pend ∧ Writes (fun _ => False) s t)
    (v.toNat ≠ 1 →
      (∀ (p : Fin 32), refuses (pIdx p 0x10) 3 (.maximaReset o p v) ∧ refuses (pIdx p 9) 5 (.synchronisingResetCommand o p v) ∧
        refuses (pIdx p 0x19) 6 (.tapReset o p v)) ∧
      refuses 0x2A02 0 (.compositeMaximaReset o v) ∧ refuses 0x2886 0 (.lifetimeMinimumReset o v) ∧
      (∀ (l : Fin 2), refuses (0x1210 + l) 6 (.loCalibration o l v)) ∧
      (∀ (a : Fin 2), refuses (0x4801 + a * 16) 8 (.faultClear o a v)) ∧
      (∀ (q : Fin 4), refuses (0x6210 + q) 8 (.hkTriggerCommand o q v) ∧ refuses (0x6310 + q) 5 (.twTransferCommand o q v) ∧
        refuses (0x6300 + q) 6 (.twResetCommand o q v)) ∧
      refuses 0x1112 0 (.imageSave o v) ∧ refuses 0x5004 0 (.swapCommand o v) ∧ refuses 0x7010 7 (.proveNow o v)) ∧
    (58 < v.toNat → refuses 0x6203 1 (.hkUrgentRequest o v)))

/-- COMMIT: refused while the set is empty, of another owner, or while another commit waits, where the mode forbids an RWD entry,
where its tick cannot be met, and where a check fails; otherwise scheduled whole. DISCARD and PENDING_SET_LAPSE empty the set
(R315 to R317). -/
def Obligations.Commits : Prop :=
  (∀ (o : Origin) (s : State), Accepts s o 0x1104 2 (d8 1) →
    let new := s.core.cfgWith s.core.pend
    let at_ := s.core.activationTick new
    let early := s.core.pend = [] ∨ s.core.ent 0x1104 4 ≠ originator o ∨ s.core.sched ≠ none ∨
      (s.core.rwdAllowed = false ∧ ∃ e, e ∈ s.core.pend ∧ rwdKey e.1 = true)
    Ends (.commit o) s (fun t =>
      (early ∨ at_.1 ≠ 0 ∨ new.refusal (s.core.probesNamed s.core.pend) ≠ none →
        t.core.ent 0x1104 2 = 2 ∧ t.core.pend = s.core.pend ∧ t.core.sched = s.core.sched ∧
        Writes (fun k => k = entKey 0x1104 2 ∨ k = entKey 0x2809 1 ∨ k = entKey 0x2809 2 ∨ k = entKey 0x3204 1 ∨
          k = entKey 0x3204 2 ∨ k = entKey 0x4386 1 ∨ k = entKey 0x4386 2 ∨ k = entKey 0x5150 1 ∨ k = entKey 0x5150 2 ∨
          k = entKey 0x6205 1 ∨ k = entKey 0x6205 2) s t) ∧
      (early → Writes (fun k => k = entKey 0x1104 2) s t) ∧
      (¬ early → at_.1 = 0 → new.refusal (s.core.probesNamed s.core.pend) = none →
        t.core.ent 0x1104 2 = 1 ∧ t.core.ent 0x1104 3 = 0 ∧ t.core.ent 0x1104 4 = 0 ∧ t.core.ent 0x1104 5 = at_.2 ∧
        t.core.ent 0x1104 6 = originAddress o ∧ t.core.ent 0x1104 7 = o.tag.toNat ∧ t.core.pend = [] ∧
        t.core.sched = some ⟨s.core.pend, at_.2, originator o⟩ ∧
        Writes (fun k => entKey 0x1104 2 ≤ k ∧ k ≤ entKey 0x1104 7) s t))) ∧
  (∀ (o : Origin) (s : State), Accepts s o 0x1104 2 (d8 2) →
    Ends (.discard o) s (fun t => t.core.sched = s.core.sched ∧
      (s.core.pend ≠ [] → s.core.ent 0x1104 4 ≠ originator o → t.core.ent 0x1104 2 = 2 ∧ t.core.pend = s.core.pend ∧
        Writes (fun k => k = entKey 0x1104 2) s t) ∧
      (s.core.pend = [] ∨ s.core.ent 0x1104 4 = originator o → t.core.ent 0x1104 2 = 5 ∧ t.core.pend = [] ∧
        t.core.ent 0x1104 3 = 0 ∧ t.core.ent 0x1104 4 = 0 ∧
        Writes (fun k => entKey 0x1104 2 ≤ k ∧ k ≤ entKey 0x1104 4) s t))) ∧
  (∀ (s : State), s.core.pend ≠ [] → s.core.ownerSeen + 10 * second ≤ s.core.now →
    Ends .pendingSetLapse s (fun t => t.core.pend = [] ∧ t.core.ent 0x1104 3 = 0 ∧ t.core.ent 0x1104 4 = 0 ∧
      Presents s t 40 0x0C14 (d32 s.core.pend.length ++ d32 (s.core.ent 0x1104 4)) ∧
      Moves (fun k => k = entKey 0x1104 3 ∨ k = entKey 0x1104 4) s t))

/-- COMMIT_ACTIVATION puts exactly the values of the commit in force, all at once: each STAGED entry it names reads the value
it carries and every other STAGED entry is as before (R14, R318); a commit of an RWD entry that the mode now forbids is
abandoned whole with record 0x0C13 (R336). -/
def Obligations.ConfigurationInForce : Prop :=
  ∀ (m : Sched) (s : State), s.core.sched = some m → s.core.phase = .ready → m.tick ≤ s.core.clock →
    let forbidden := s.core.rwdAllowed = false ∧ ∃ e, e ∈ m.writes ∧ rwdKey e.1 = true
    Ends .commitActivation s (fun t => t.core.pend = s.core.pend ∧ t.core.sched = none ∧ Beside s t ∧
      (forbidden → t.core.ent 0x1104 2 = 3 ∧ t.core.ent 0x1104 5 = 0 ∧ Presents s t 40 0x0C13 (d32 m.tick ++ d32 m.owner) ∧
        Moves (fun k => k = entKey 0x1104 2 ∨ k = entKey 0x1104 5) s t) ∧
      (¬ forbidden → s.core.heldLocal = [] → t.core.ent 0x1104 2 = 0 ∧ t.core.clock = s.core.clock ∧
        Presents s t 40 0x0C01 (d32 m.tick ++ d16 m.writes.length ++ d32 m.owner ++ d16 (s.core.ent 0x1104 7)) ∧
        ∀ (i sub : Nat), sub < 256 → stagedKey (entKey i sub) = true → t.core.ent i sub =
          (match m.writes.reverse.find? (fun e => e.1 = entKey i sub) with | some e => e.2 | none => s.core.ent i sub)))

/-- COUNTER_CLEAR sets every statistics counter of the index, or of the node, to 0 and clears their flags, with record
0x0C12; 0x1120 and 0x1121 are refused with 0x0409, and an index without a counter with 0x0101. The event of the clearing
edge, the request itself, is counted at 0x1133.01 after the clear, and every counter cleared holds 0 (R325). IRQ_CLEAR clears
the causes written as 1; the response's own recurs on the edge and stays set. The model's own choices: log entries 94, 95. -/
def Obligations.CountersAndInterrupts : Prop :=
  (∀ (o : Origin) (v : Half) (s : State), Accepts s o 0x1132 0 (d16 v.toNat) →
    let refused := v.toNat = 0x1120 ∨ v.toNat = 0x1121 ∨ (v.toNat ≠ 0xFFFF ∧ holdsCounter v.toNat = false)
    Ends (.counterClear o v) s (fun t =>
      (refused → Writes (fun _ => False) s t) ∧
      (v.toNat = 0x1120 ∨ v.toNat = 0x1121 → Refuses s t o 0x1132 0 0x0409) ∧
      (v.toNat ≠ 0x1120 → v.toNat ≠ 0x1121 → v.toNat ≠ 0xFFFF → holdsCounter v.toNat = false →
        Refuses s t o 0x1132 0 0x0101) ∧
      (¬ refused → Presents s t 40 0x0C12 (d16 v.toNat ++ d32 (originator o)) ∧
        (∀ (i sub : Nat), clears v.toNat (entKey i sub) = true →
          t.core.ent i sub = 0 ∧ t.core.sticky.contains (entKey i sub) = false) ∧
        (∀ k, clears v.toNat k = false → t.core.sticky.contains k = s.core.sticky.contains k) ∧
        t.core.ent 0x1133 1 = (s.core.ent 0x1133 1 + 1) % 2 ^ 32 ∧
        Writes (fun k => clears v.toNat k = true) s t))) ∧
  (∀ (o : Origin) (v : Word) (s : State), Accepts s o 0x1134 0 (d32 v.toNat) →
    Ends (.irqClear o v) s (fun t =>
      (∀ k, k < 32 → k ≠ 2 ∨ o.transport ≠ .hspi →
        t.core.entBit 0x1134 0 k = (s.core.entBit 0x1134 0 k && !bit v.toNat k)) ∧
      (o.transport = .hspi → o.broadcast = false → t.core.entBit 0x1134 0 2 = true) ∧ Writes (fun _ => False) s t))

/-- HSPI_REQUEST, HSPI_RESPONSE and HSPI_STATUS (R319, R320); a transaction's request, its response, its timeout and the
quarantine of its tag (R310 to R313). The model's own choices: log entries 95, 96. -/
def Obligations.HostTransfers : Prop :=
  (∀ (b : List Byte) (s : State), s.core.phase = .ready →
    let req := hspiBody b
    let code := s.sendRefusal b
    let time := if hspiTimeout b = 0 then s.core.ent 0x1130 0 else hspiTimeout b
    Ends (.hspiRequest b) s (fun t =>
      (s.link.hspi ≠ none → t.core.ent 0x1133 6 = min (s.core.ent 0x1133 6 + 1) 0xFFFFFFFF ∧
        Moves (fun k => k = entKey 0x1133 6) s t) ∧
      (s.link.hspi = none → b.length < 8 ∨ b.length < 8 + field b 6 2 → t = s) ∧
      (s.link.hspi = none → 8 ≤ b.length → 8 + field b 6 2 ≤ b.length →
        (s.core.hspiLocal b = true ∨ s.room 16 = false → t = { s with link := { s.link with hspi := some b } }) ∧
        (s.core.hspiLocal b = false → s.room 16 = true → t.link.hspi = none ∧
          (code ≠ 0 → t.link.responses = s.link.responses ++ [wrapResponse s.core.address (s.core.shortResponse req code)] ∧
            t.link.flights = s.link.flights ∧ t.core.entBit 0x1134 0 2 = true ∧ BesideLink s t ∧
            Untouched (fun k => k = entKey 0x1134 0) s t) ∧
          (code = 0 → hspiDest b = 0xFFFF →
            t.link.responses = s.link.responses ++ [wrapResponse s.core.address (s.core.shortResponse req 0)] ∧
            t.link.flights = s.link.flights ∧ BesideLink s t ∧
            Untouched (fun k => k = entKey 0x1134 0 ∨ k = entKey 0x5130 1) s t) ∧
          (code = 0 → hspiDest b ≠ 0xFFFF →
            t.link.flights.find? (field req 2 2) = some ⟨hspiDest b, s.core.now + time * ms, false, req.take 22⟩ ∧
            t.link.responses = s.link.responses ∧ t.core.ent 0x1131 0 = s.core.ent 0x1131 0 + 1 ∧ BesideLink s t ∧
            Untouched (fun k => k = entKey 0x1131 0 ∨ k = entKey 0x5130 1) s t))))) ∧
  (∀ (s : State), s.core.phase = .ready →
    Ends .hspiResponse s (fun t => t.core = s.core ∧ BesideLink s t ∧
      (s.link.responses = [] → t.link.lastSent = wrapResponse s.core.address [] ∧ t.link.responses = []) ∧
      (∀ r l, s.link.responses = r :: l → t.link.lastSent = r ∧ t.link.responses = l))) ∧
  (∀ (s : State), s.core.phase = .ready →
    Ends .hspiStatus s (fun t => t.core = s.core ∧ BesideLink s t ∧ t.link.overflowed = false ∧
      t.link.responses = s.link.responses ∧
      ∃ x, x < 16 ∧ t.link.lastSent = d8 x ++ d16 (match s.link.responses with | r :: _ => r.length - 8 | [] => 0) ∧
        bit x 0 = s.link.hspi.isNone ∧ bit x 1 = !s.link.responses.isEmpty ∧ bit x 2 = s.link.overflowed ∧
        bit x 3 = s.core.irqAsserted)) ∧
  (∀ (source : Half) (body : List Byte) (s : State), s.core.phase = .ready →
    let tag := field body 2 2 % 16384
    let mine : Flight → Prop := fun f => s.link.flights.find? tag = some f ∧ f.quarantined = false ∧
      (f.destination = source.toNat ∨ field body 8 2 = 0x0605)
    Ends (.lineResponse source body) s (fun t =>
      ((∀ f, ¬ mine f) → t.core.ent 0x1133 4 = min (s.core.ent 0x1133 4 + 1) 0xFFFFFFFF ∧
        Moves (fun k => k = entKey 0x1133 4) s t) ∧
      (∀ f, mine f → s.room body.length = false → t.core.ent 0x1133 4 = min (s.core.ent 0x1133 4 + 1) 0xFFFFFFFF ∧
        t.core.entBit 0x1134 0 3 = true ∧ t.link = { s.link with overflowed := true } ∧ BesideLink s t ∧
        Untouched (fun k => k = entKey 0x1133 4 ∨ k = entKey 0x1134 0) s t) ∧
      (∀ f, mine f → s.room body.length = true → t.link.flights.find? tag = none ∧
        t.link.responses = s.link.responses ++ [wrapResponse source.toNat body] ∧
        t.core.ent 0x1131 0 = s.core.ent 0x1131 0 - 1 ∧ t.core.entBit 0x1134 0 2 = true ∧ BesideLink s t ∧
        Untouched (fun k => k = entKey 0x1131 0 ∨ k = entKey 0x1134 0) s t))) ∧
  (∀ (tag : Half) (f : Flight) (s : State), s.link.flights.find? tag.toNat = some f → f.quarantined = false →
    f.until_ ≤ s.core.now →
    Ends (.transactionTimeout tag) s (fun t =>
      t.link.flights.find? tag.toNat = some { f with until_ := s.core.now + second, quarantined := true } ∧
      t.core.ent 0x1131 0 = s.core.ent 0x1131 0 - 1 ∧
      t.core.ent 0x1133 3 = min (s.core.ent 0x1133 3 + 1) 0xFFFFFFFF ∧
      (s.room 16 = true → t.link.responses = s.link.responses ++
        [wrapResponse s.core.address (s.core.shortResponse f.request 0x0604)]) ∧
      (s.room 16 = false → t.link.responses = s.link.responses ∧ t.link.overflowed = true ∧
        t.core.ent 0x1133 4 = min (s.core.ent 0x1133 4 + 1) 0xFFFFFFFF) ∧ BesideLink s t ∧
      Untouched (fun k => k = entKey 0x1131 0 ∨ k = entKey 0x1133 3 ∨ k = entKey 0x1133 4 ∨ k = entKey 0x1134 0) s t)) ∧
  (∀ (tag : Half) (f : Flight) (s : State), s.link.flights.find? tag.toNat = some f → f.quarantined = true →
    f.until_ ≤ s.core.now →
    Ends (.tagQuarantineEnd tag) s (fun t => t.link.flights.find? tag.toNat = none ∧ t.core = s.core ∧ BesideLink s t ∧
      ∀ k, k ≠ tag.toNat → t.link.flights.find? k = s.link.flights.find? k))

/-- The TWT window (R322, R395, R396): the doorbell, bytes written and read with their pointer, and broken transfers. The
boundary scan (R440 to R442): the register each instruction selects; EXTEST, CLAMP and HIGHZ act only while RESET_N is low.
The model's own choices: log entries 97, 116. -/
def Obligations.ServiceInterfaces : Prop :=
  (∀ (s : State), s.twtOn = true →
    let rings : Nat → Nat → State → Prop := fun from_ to_ t =>
      (s.link.mailState = from_ → t = { s with link := { s.link with mailState := to_ } }) ∧
      (s.link.mailState ≠ from_ → t.core.ent 0x1133 6 = min (s.core.ent 0x1133 6 + 1) 0xFFFFFFFF ∧
        Moves (fun k => k = entKey 0x1133 6) s t)
    let p := s.core.ent 0x6340 3
    Ends .doorbellSubmit s (rings 0 1) ∧ Ends .doorbellRelease s (rings 2 0) ∧
    (∀ (b : Byte), Ends (.twtWriteByte true b) s (fun t => t.core.ent 0x6340 3 = b.toNat ∧
      t.core.ent 0x6340 5 = (s.core.ent 0x6340 5 + 1) % 2 ^ 32 ∧
      Moves (fun k => k = entKey 0x6340 3 ∨ k = entKey 0x6340 5) s t)) ∧
    (∀ (b : Byte), Ends (.twtWriteByte false b) s (fun t => t.core.ent 0x6340 3 = (p + 1) % 256 ∧
      (8 ≤ p → s.link.mailState = 0 → t.link = { s.link with mail := setAt s.link.mail (p - 8) b }) ∧
      (p = 4 → s.link.mailState = 0 → t.link.mailLength = s.link.mailLength / 256 * 256 + b.toNat) ∧
      (p = 5 → s.link.mailState = 0 → t.link.mailLength = s.link.mailLength % 256 + 256 * b.toNat) ∧
      (p ∈ [0, 2, 3, 6, 7] ∨ (p ≠ 1 ∧ s.link.mailState ≠ 0) → t.link = s.link ∧
        t.core.ent 0x1133 6 = min (s.core.ent 0x1133 6 + 1) 0xFFFFFFFF) ∧
      (p = 1 → b.toNat = 1 → s.link.mailState = 0 → t.link.mailState = 1) ∧
      (p = 1 → b.toNat = 0 → s.link.mailState = 2 → t.link.mailState = 0) ∧ BesideLink s t ∧
      Untouched (fun k => k = entKey 0x6340 3 ∨ k = entKey 0x1133 6) s t)) ∧
    (∀ (first : Bool), Ends (.twtReadByte first) s (fun t => t.core.ent 0x6340 3 = (p + 1) % 256 ∧
      t.core.ent 0x6340 5 = (if first = true then (s.core.ent 0x6340 5 + 1) % 2 ^ 32 else s.core.ent 0x6340 5) ∧
      (p = 0 → t.link.twtSent = s.link.mailState) ∧ (p = 4 → t.link.twtSent = s.link.mailLength % 256) ∧
      (p = 5 → t.link.twtSent = s.link.mailLength / 256 % 256) ∧ (p ∈ [2, 3, 6, 7] → t.link.twtSent = 0) ∧
      (8 ≤ p → t.link.twtSent = (s.link.mail.getD (p - 8) 0#8).toNat) ∧
      t.link = { s.link with twtSent := t.link.twtSent } ∧ BesideLink s t ∧
      Untouched (fun k => k = entKey 0x6340 3 ∨ k = entKey 0x6340 5) s t)) ∧
    Ends (.twtBrokenTransfer .midByte) s (fun t => t = s) ∧
    Ends (.twtBrokenTransfer .restartAtAcknowledge) s (fun t =>
      t.core.ent 0x6340 7 = min (s.core.ent 0x6340 7 + 1) 0xFFFFFFFF ∧ Moves (fun k => k = entKey 0x6340 7) s t) ∧
    Ends .twtTimeout s (fun t => t.core.ent 0x6340 6 = min (s.core.ent 0x6340 6 + 1) 0xFFFFFFFF ∧
      Presents s t 49 0x1108 (d8 p) ∧ Moves (fun k => k = entKey 0x6340 6) s t)) ∧
  (∀ (s : State),
    let selects : Nat → Nat → Option Nat → State → Prop := fun ir dr f t =>
      t = { s with jtag := { s.jtag with ir := ir, dr := dr, inForce := f } }
    let drives : Nat → Nat → State → Prop := fun ir dr t =>
      (s.core.resetLow = true → selects ir dr (some ir) t) ∧ (s.core.resetLow = false → selects ir 2 none t)
    Ends .jtagReset s (selects 0x01 1 none) ∧ Ends .idcode s (selects 0x01 1 none) ∧ Ends .bypass s (selects 0xFF 2 none) ∧
    Ends .extest s (drives 0x00 0) ∧ Ends .clamp s (drives 0x04 2) ∧ Ends .highz s (drives 0x05 2) ∧
    Ends .samplePreload s (fun t => t.jtag.ir = 0x02 ∧ t.jtag.dr = 0 ∧ t.jtag.inForce = none ∧
      t.core.dict = s.core.dict ∧ t.core.presented = s.core.presented ∧ t.book = s.book ∧ t.nv = s.nv ∧
      t.link = s.link ∧ t.pending = s.pending))

/-- The join exchange (R295, R332, R334, R335): at a station the request, the answer to a challenge, the decision, its
timeout and the retry; at the terminus the challenge and the decision on an answer. The model's own choice: log entry 92. -/
def Obligations.JoinExchange : Prop :=
  (∀ (s : State), s.core.awake = true → s.core.isTerminus = false → s.core.ent 0x5102 0 = 1 →
    s.core.reached s.core.line.requestAt = true →
    Ends .joinRequestSend s (fun t => t.core.line.requestAt = some (s.core.now + 100 * ms) ∧
      Moves (fun k => k = entKey 0x5130 1) s t)) ∧
  (∀ (v : List Byte) (s : State), s.core.awake = true →
    let takes := s.core.ent 0x5102 0 = 1 ∧ v.take 16 = serialNo ∧ s.core.isTerminus = false ∧ s.core.ident.storeGood = true
    Ends (.joinChallenge v) s (fun t =>
      (¬ takes → t = s) ∧
      (takes → t.core.ent 0x5102 0 = 2 ∧ t.core.ent 0x5103 2 = field v 48 2 ∧
        t.core.line.decisionBy = some (s.core.now + 200 * ms) ∧
        Presents s t 39 0x0B06 (d8 0xFF ++ d8 1 ++ d8 2 ++ d16 (s.core.ent 0x5103 1)) ∧
        (s.core.ident.signing = none → ∃ g, t.core.ident.signing = some g ∧ g.purpose = 1 ∧ g.by_ = s.core.now + 983040) ∧
        (s.core.ident.signing ≠ none → t.core.ident.signing = s.core.ident.signing ∧
          ∃ g, t.core.ident.waiting = some g ∧ g.purpose = 1) ∧
        Moves (fun k => k = entKey 0x5102 0 ∨ k = entKey 0x5100 0 ∨ k = entKey 0x5103 2) s t))) ∧
  (∀ (v : List Byte) (s : State), s.core.awake = true →
    let d := field v 18 1
    let takes := v.take 16 = serialNo ∧ s.core.isTerminus = false ∧ (s.core.ent 0x5102 0 = 2 ∨ s.core.ent 0x5102 0 = 4) ∧
      3 ≤ d ∧ d ≤ 5
    Ends (.joinDecision v) s (fun t =>
      (¬ takes → t = s) ∧
      (takes → t.core.ent 0x5102 0 = d ∧ (d ≠ 5 → t.core.ent 0x5103 1 = field v 16 2) ∧
        (d = 4 → s.core.ent 0x5102 0 = 2 → t.core.ent 0x1101 0 = mStand) ∧
        (d = 3 → s.core.ent 0x5102 0 = 4 → t.core.ent 0x1101 0 = s.core.ent 0x110B 0) ∧
        (d = 5 → t.core.line.retryAt = some (s.core.now + 10 * second)) ∧
        Moves (fun k => footAdmission k ∨ k = entKey 0x5103 1) s t))) ∧
  (∀ (s : State), s.core.ent 0x5102 0 = 2 → s.core.reached s.core.line.decisionBy = true →
    Ends .joinDecisionTimeout s (fun t => t.core.ent 0x5102 0 = 1 ∧ t.core.line.requestAt = some s.core.now ∧
      Presents s t 39 0x0B06 (d8 0xFF ++ d8 2 ++ d8 1 ++ d16 (s.core.ent 0x5103 1)) ∧
      Moves (fun k => k = entKey 0x5102 0 ∨ k = entKey 0x5100 0) s t)) ∧
  (∀ (s : State), s.core.ent 0x5102 0 = 5 → s.core.reached s.core.line.retryAt = true →
    Ends .joinRetry s (fun t => t.core.ent 0x5102 0 = 1 ∧ t.core.line.requestAt = some s.core.now ∧
      Presents s t 39 0x0B06 (d8 0xFF ++ d8 5 ++ d8 1 ++ d16 (s.core.ent 0x5103 1)) ∧
      Moves (fun k => k = entKey 0x5102 0 ∨ k = entKey 0x5100 0) s t)) ∧
  (∀ (v : List Byte) (s : State), s.core.phase = .ready → v.length = 85 →
    let running := s.core.ident.joins.filter (fun j => s.core.now < j.since + 200 * ms)
    let f := fingerprintOf ((v.drop 20).take 65)
    Ends (.joinRequest v) s (fun t =>
      (s.core.isTerminus = false → t = s) ∧
      (s.core.isTerminus = true → Moves (fun k => k = entKey 0x5130 1) s t ∧
        ((∃ j ∈ running, j.address = field v 16 2) → t.core.ident.joins = running ∧
          Presents s t 41 0x0D02 (d16 (field v 16 2) ++ d8 5 ++ d8 6 ++ f.take 4)) ∧
        ((∀ j ∈ running, j.address ≠ field v 16 2) → ∃ n, n.length = 32 ∧
          t.core.ident.joins = running ++ [⟨field v 16 2, v.take 16, (v.drop 20).take 65, n, s.core.now⟩])))) ∧
  (∀ (v : List Byte) (s : State), s.core.phase = .ready → s.core.isTerminus = true → v.length = 80 →
    Ends (.joinAnswer v) s (fun t => Moves footJoins s t ∧
      ((∀ j ∈ s.core.ident.joins, j.serial ≠ v.take 16) → t = s) ∧
      (∀ j, s.core.ident.joins.find? (fun j => j.serial = v.take 16) = some j →
        let f := fingerprintOf j.key
        let good := Config.verify j.key (ascii "CLXJOIN1" ++ j.nonce ++ j.serial ++ d16 s.core.address ++ d16 j.address)
          ((v.drop 16).take 64)
        let stores : Nat → Nat → Nat → Prop := fun a d r => Presents s t 41 0x0D02 (d16 a ++ d8 d ++ d8 r ++ f.take 4)
        t.core.ident.joins = s.core.ident.joins.filter (fun x => x.serial ≠ j.serial) ∧
        (good = false → stores j.address 5 1 ∧ t.core.ident.roster = s.core.ident.roster) ∧
        (good = true → ∀ n e, s.core.rosterOf f = some (n, e) →
          rosState (t.core.rosterGet n) = 2 ∧
          (rosAddress e = j.address → stores j.address 3 0) ∧
          (rosAddress e ≠ j.address → stores (rosAddress e) 3 2 ∧ Presents s t 41 0x0D03 (d16 j.address ++ d16 (rosAddress e)))) ∧
        (good = true → s.core.rosterOf f = none → j.address = 0 → stores 0 5 3) ∧
        (good = true → s.core.rosterOf f = none → j.address ≠ 0 → ∀ n e, s.core.rosterAt j.address = some (n, e) →
          s.core.present e = true → stores j.address 5 4) ∧
        (good = true → s.core.rosterOf f = none → j.address ≠ 0 → s.core.rosterAt j.address = none →
          (s.core.ent 0x5231 0 = 1 → stores j.address 5 7) ∧
          (∀ n, s.core.ent 0x5231 0 = 2 → s.core.rosterFree = some n → stores j.address 3 7 ∧
            rosAddress (t.core.rosterGet n) = j.address % 2 ^ 16)))))

/-- ATTESTATION and SIGNATURE_DONE (R330, R331); the roster and the host's decision on a pending join (R333, R335);
BOOK_EXPORT and EXPORT_SIGNED (R337, R410). The model's own choice: log entry 87. -/
def Obligations.SigningAndRoster : Prop :=
  (∀ (o : Origin) (n : List Byte) (s : State), Accepts s o 0x5210 1 n →
    Ends (.attestation o n) s (fun t =>
      (s.core.ident.storeGood = false ∨ s.core.ident.signing ≠ none → t.core.ent 0x5210 1 = 2 ∧ t.core.ident = s.core.ident) ∧
      (s.core.ident.storeGood = true → s.core.ident.signing = none → t.core.ent 0x5210 1 = 1 ∧
        t.core.ident.signing = some ⟨2, ascii "CLXATST1" ++ n ++ serialNo ++ leBytes 8 s.core.clock, s.core.clock,
          s.core.now + 983040⟩) ∧ Writes (fun k => k = entKey 0x5210 1) s t)) ∧
  (∀ (g : Signing) (s : State), s.core.ident.signing = some g → g.purpose ≠ 3 →
    Ends .signatureDone s (fun t => t.core.ident.waiting = none ∧
      (s.core.ident.waiting = none → t.core.ident.signing = none) ∧
      (∀ w, s.core.ident.waiting = some w → t.core.ident.signing = some { w with by_ := s.core.now + 983040 }) ∧
      (g.purpose = 2 → t.core.ent 0x5210 1 = 0 ∧ (∃ x, x.length = 64 ∧
        t.core.ent 0x5210 2 = ofLe (leBytes 8 g.clock ++ x)) ∧
        Moves (fun k => k = entKey 0x5210 1 ∨ k = entKey 0x5210 2) s t) ∧
      (g.purpose ≠ 2 → Moves (fun k => k = entKey 0x5130 1) s t))) ∧
  (∀ (o : Origin) (e : List Byte) (s : State), Accepts s o 0x5233 0 e →
    let n := s.core.ent 0x5232 0
    let raw := rosterRaw e
    let refused := rosState raw ≠ 0 ∧ (2 < rosState raw ∨ s.core.rosterClash n raw = true)
    Ends (.rosterWrite o e) s (fun t =>
      (refused → t.core.ident = s.core.ident ∧ Writes (fun _ => False) s t) ∧
      (¬ refused → t.core.rosterGet n = (if rosState raw = 0 then 0 else raw) ∧
        (∀ m, m ≠ n → t.core.rosterGet m = s.core.rosterGet m) ∧
        Presents s t 41 0x0D06 (d16 n ++ d16 (rosAddress raw) ++ d32 (originator o) ++ d16 o.tag.toNat) ∧
        Writes (fun k => k = entKey 0x5234 0) s t))) ∧
  (∀ (o : Origin) (a : Half) (f : List Byte) (s : State),
    let hit := s.core.pendingHit a.toNat f
    let e : Nat → List Byte := fun k => pendBytes (s.core.ent 0x5236 k)
    let closes : Nat → Nat → State → Prop := fun k action t => t.core.ent 0x5236 k = 0 ∧ t.core.ent 0x5235 0 = 0 ∧
      Presents s t 41 0x0D05 (d16 a.toNat ++ d8 action ++ d32 (originator o) ++ d16 o.tag.toNat)
    let foot : Nat → Prop := fun k => footJoins k ∨ k = entKey 0x5235 0
    (Accepts s o 0x5235 0 (d16 a.toNat ++ f ++ d8 1) → Ends (.pendingAccept o a f) s (fun t => Writes foot s t ∧
      (hit = none → t.core.ent 0x5235 0 = 1 ∧ t.core.ident = s.core.ident) ∧
      (∀ k, hit = some k → field (e k) 2 1 = 3 → closes k 1 t ∧
        (⟨((e k).drop 20).take 32, true, s.core.now + 10 * second⟩ : Referred) ∈ t.core.ident.referred) ∧
      (∀ k, hit = some k → field (e k) 2 1 ≠ 3 → s.core.rosterAt a.toNat = none → s.core.rosterFree = none →
        t.core.ent 0x5235 0 = 2 ∧ t.core.ident = s.core.ident) ∧
      (∀ k n, hit = some k → field (e k) 2 1 ≠ 3 → (s.core.rosterAt a.toNat).map Prod.fst = some n ∨
          (s.core.rosterAt a.toNat = none ∧ s.core.rosterFree = some n) →
        let new := rosEntry a.toNat 2 0 (((e k).drop 20).take 32)
        (s.core.rosterClash n new = true → t.core.ident = s.core.ident ∧ Writes (fun _ => False) s t) ∧
        (s.core.rosterClash n new = false → closes k 1 t ∧ t.core.rosterGet n = new)))) ∧
    (Accepts s o 0x5235 0 (d16 a.toNat ++ f ++ d8 2) → Ends (.pendingReject o a f) s (fun t => Writes foot s t ∧
      t.core.ident.roster = s.core.ident.roster ∧
      (hit = none → t.core.ent 0x5235 0 = 1 ∧ t.core.ident = s.core.ident) ∧
      (∀ k, hit = some k → closes k 2 t ∧ (field (e k) 2 1 = 3 →
        (⟨((e k).drop 20).take 32, false, s.core.now + 10 * second⟩ : Referred) ∈ t.core.ident.referred))))) ∧
  (∀ (o : Origin) (s : State), Accepts s o 0x6430 3 (d8 1) →
    Ends (.bookExport o) s (fun t =>
      let bad := s.core.ident.storeGood = false ∨ s.core.ident.signing ≠ none ∨ s.core.ident.waiting ≠ none
      (bad → t.core.ent 0x6430 3 = 2 ∧ t.core.ident = s.core.ident ∧ Writes (fun k => k = entKey 0x6430 3) s t) ∧
      (¬ bad → t.core.ent 0x6430 3 = 1 ∧ t.core.entBit 0x6400 0 1 = false ∧
        (∃ g, t.core.ident.signing = some g ∧ g.purpose = 3 ∧ g.by_ = s.core.now + 983040) ∧
        t.book = { s.book with frozen := some (s.core.now + 10 * second),
                               export_ := some (s.core.ent 0x6430 1, s.core.ent 0x6430 2) } ∧
        (s.book.frozen = none → t.core.ent 0x6410 0 = 1 ∧ Presents s t 50 0x1203 (d8 1 ++ d8 2)) ∧
        t.nv = s.nv ∧ t.jtag = s.jtag ∧ t.pending = s.pending ∧
        Untouched (fun k => footReply k ∨ k = entKey 0x6430 3 ∨ k = entKey 0x6400 0 ∨ k = entKey 0x6410 0) s t))) ∧
  (∀ (g : Signing) (s : State), s.core.ident.signing = some g → g.purpose = 3 →
    Ends .exportSigned s (fun t => t.core.ent 0x6430 3 = 0 ∧ t.core.entBit 0x6400 0 1 = true ∧
      (∃ x, x.length = 64 ∧ t.core.ent 0x6430 4 = ofLe (padTo 144 (g.message ++ x))) ∧
      t.book = { s.book with export_ := none } ∧
      (s.core.ident.waiting = none → t.core.ident.signing = none) ∧
      (∃ l, Presents s t 50 0x1204 l) ∧ t.nv = s.nv ∧ t.link = s.link ∧ t.jtag = s.jtag ∧ t.pending = s.pending ∧
      Untouched (fun k => k = entKey 0x6430 3 ∨ k = entKey 0x6430 4 ∨ k = entKey 0x6400 0) s t))

/-- PERIOD_START, TIMETABLE_ENTRY and SWITCHING_EDGE (R186, R187, R190, R194 to R197); SYNC_BURST_DETECTED, SYNC_BURST_MISSED and
FRAME_HOLDOVER_EXPIRY: the frame timing state (R192 to R195). -/
def Obligations.FrameTiming : Prop :=
  (∀ (s : State), s.core.periodDue = true →
    Ends .periodStart s (fun t =>
      (∀ j, s.core.fe.jump = some j → t.core.fe.frame16 = j ∧ t.core.fe.jump = none ∧
        (∃ l, Presents s t 36 0x0803 l) ∧ Moves (fun _ => False) s t) ∧
      (s.core.fe.jump = none → t.core.fe.frame16 = s.core.fe.frame16 ∧ t.core.fe.slew16 = s.core.fe.slew16 ∧
        t.core.ent 0x3203 1 = wrapClock (s.core.periodOf s.core.clock) ∧
        (s.core.ent 0x3202 0 = 3 → t.core.fe.gateOpen = true) ∧
        t.core.ent 0x3203 3 = (s.core.ent 0x3203 3 + 1) % 2 ^ 32 ∧
        Moves (fun k => k = entKey 0x3203 1 ∨ k = entKey 0x3203 3 ∨ footFrame k) s t))) ∧
  (∀ (i : Fin 64) (s : State), s.core.entryDue i = true →
    Ends (.timetableEntry i) s (fun t =>
      let e := s.core.cfg.entriesInUse.getD i 0
      t.core.fe.entry = some i.val ∧ t.core.fe.pattern = ttPattern e ∧
      (∀ p, p < 32 → s.core.cfg.configured p = true → s.core.cfg.isTdd p = true → s.core.cfg.dirOf p = ttState e →
        s.core.entBit 0x110A 0 p = true →
        t.core.ent (pIdx p 0x29) 1 = min (s.core.ent (pIdx p 0x29) 1 + 1) 0xFFFFFFFF) ∧
      Moves (fun k => onPaths [0x2901, 0x2902, 0x2903, 0x2904, 0x2905] k ∨ k = entKey 0x3180 5 ∨ footHk k ∨
        ∃ q, q < 4 ∧ k = entKey (0x6210 + q) 7) s t)) ∧
  (∀ (n : Fin 32) (on : Bool) (s : State), s.core.edgeDue (.fec n) on = true →
    let f := s.core.ent (0x3220 + n) 1
    let port := s.core.trswOn (s.core.ent (0x3220 + n) 2)
    let held := on = true ∧ ((f = 1 ∧ port = false) ∨ (f = 2 ∧ port = true))
    Ends (.switchingEdge (.fec n) on) s (fun t =>
      (¬ held → t.core.fecOn n = on ∧ Moves (fun k => k = entKey (0x3220 + n) 7) s t) ∧
      (held → t.core.fecOn n = s.core.fecOn n ∧ Moves (fun k => k = entKey (0x3220 + n) 8) s t ∧
        (n.val ∉ s.core.fe.clipped →
          t.core.ent (0x3220 + n) 8 = min (s.core.ent (0x3220 + n) 8 + 1) 0xFFFFFFFF)))) ∧
  (∀ (n : Fin 4) (on : Bool) (s : State), s.core.edgeDue (.trsw n) on = true →
    Ends (.switchingEdge (.trsw n) on) s (fun t => t.core.trswOn n = on ∧
      t.core.ent (0x3240 + n) 7 = (s.core.ent (0x3240 + n) 7 + 1) % 2 ^ 32 ∧
      (∀ m, m < 32 → s.core.ent (0x3220 + m) 1 = (if on = true then 2 else 1) → s.core.ent (0x3220 + m) 2 = n.val →
        t.core.fecOn m = false) ∧
      Moves (fun k => k = entKey (0x3240 + n) 5 ∨ k = entKey (0x3240 + n) 7 ∨ footFec k) s t)) ∧
  (∀ (b : Burst) (s : State), s.core.searching = true →
    let st := s.core.ent 0x3202 0
    let ours := s.core.ent 0x3201 4 = 0xFFFF ∨ s.core.ent 0x3201 4 = b.cell.toNat
    let err := s.core.burstError b.position
    Ends (.syncBurstDetected b) s (fun t =>
      (¬ ours → st = 1 ∨ st = 5 → t.core.fe = { s.core.fe with burstAt := s.core.now } ∧ Moves (fun _ => False) s t) ∧
      (¬ ours → st ≠ 1 → st ≠ 5 → t.core.ent 0x3203 7 = min (s.core.ent 0x3203 7 + 1) 0xFFFFFFFF) ∧
      (ours → t.core.ent 0x3203 4 = b.cell.toNat ∧ t.core.ent 0x3203 5 = b.frameNumber.toNat ∧
        t.core.ent 0x3203 6 = min (s.core.ent 0x3203 6 + 1) 0xFFFFFFFF ∧
        (st = 2 → withinI err 256 = true → t.core.ent 0x3202 0 =
          (if s.core.ent 0x3201 6 ≤ s.core.fe.verified + 1 then 3 else 2)) ∧
        (st = 2 → withinI err 256 = false → t.core.ent 0x3202 0 = (if s.core.fe.everSync = true then 5 else 1)) ∧
        (st = 3 → withinI err 1024 = true → t.core.ent 0x3203 2 = rawOf 32 err ∧
          t.core.fe.frame16 = s.core.fe.frame16 + openRound err 8 ∧ t.core.ent 0x3202 0 = 3) ∧
        (st = 3 → withinI err 1024 = false → t.core.ent 0x3203 8 = min (s.core.ent 0x3203 8 + 1) 0xFFFFFFFF ∧
          t.core.ent 0x3203 7 = min (s.core.ent 0x3203 7 + 1) 0xFFFFFFFF) ∧
        (st = 1 ∨ st = 5 → s.core.cfg.framePeriod ≠ 0 → t.core.ent 0x3202 0 = 2 ∧ t.core.fe.verified = 0)) ∧
      Moves (fun k => footTime k ∨ (entKey 0x3203 2 ≤ k ∧ k ≤ entKey 0x3203 8)) s t)) ∧
  (∀ (s : State), s.core.searching = true → 2 ≤ s.core.ent 0x3202 0 → s.core.ent 0x3202 0 ≤ 4 →
    s.core.fe.burstAt + 5 * ms * 2 ^ (s.core.ent 0x3201 5) ≤ s.core.now →
    Ends .syncBurstMissed s (fun t => t.core.ent 0x3203 7 = min (s.core.ent 0x3203 7 + 1) 0xFFFFFFFF ∧
      (s.core.ent 0x3202 0 = 2 → t.core.ent 0x3202 0 = (if s.core.fe.everSync = true then 5 else 1)) ∧
      (s.core.ent 0x3202 0 = 3 → t.core.ent 0x3202 0 =
        (if s.core.ent 0x3201 7 ≤ s.core.fe.missedRun + 1 then 4 else 3)) ∧
      (s.core.ent 0x3202 0 = 4 → t.core.ent 0x3202 0 = 4) ∧
      Moves (fun k => footFrame k ∨ k = entKey 0x3203 7) s t)) ∧
  (∀ (n : Nat) (s : State), s.core.ent 0x3202 0 = 4 → s.core.fe.holdSince = some n →
    n + (if s.core.cfg.timingSource = 2 then min (s.core.ent 0x1224 0) (s.core.ent 0x3201 8) else s.core.ent 0x3201 8) * second ≤
      s.core.now →
    Ends .frameHoldoverExpiry s (fun t => t.core.ent 0x3202 0 = 5 ∧ Moves footFrame s t))

/-- POINTS_BURST and POINTS_CHANGE: the levels of both branches, the runs of missing bursts, and a change of branch with
record 0x0805 (R198 to R201). A coexistence channel: request, grant, release, resumption, and an overdue grant with record
0x0807 (R202, R203). The model's own choices: log entries 62, 115. -/
def Obligations.PointsAndCoexistence : Prop :=
  (∀ (k : Fin 2) (a b : Option Int) (s : State), s.core.awake = true → s.core.ent (0x3250 + k) 3 = 2 →
    s.core.ent (0x3250 + k) 1 < 8 → (s.core.ent 0x3202 0 = 3 ∨ s.core.ent 0x3202 0 = 4) →
    Ends (.pointsBurst k a b) s (fun t =>
      t.core.ent (0x3250 + k) 10 = (match a with | some v => cdbRaw v | none => noCdb) ∧
      t.core.ent (0x3250 + k) 11 = (match b with | some v => cdbRaw v | none => noCdb) ∧
      (t.core.points k).missA = (if a = none ∧ b ≠ none then (s.core.points k).missA + 1 else 0) ∧
      (t.core.points k).missB = (if b = none ∧ a ≠ none then (s.core.points k).missB + 1 else 0) ∧
      Moves (fun x => x = entKey (0x3250 + k) 10 ∨ x = entKey (0x3250 + k) 11 ∨ footPoints x) s t)) ∧
  (∀ (k : Fin 2) (x br : Nat) (s : State), (s.core.points k).changeAt = some x → atOrBefore x s.core.clock = true →
    (s.core.points k).pending = some br → (s.core.isStandby && s.core.paired) = false →
    Ends (.pointsChange k) s (fun t => t.core.ent (0x3250 + k) 9 = br ∧ (t.core.points k).pending = none ∧
      t.core.ent (0x3250 + k) 12 = (if s.core.ent (0x3250 + k) 9 = br then s.core.ent (0x3250 + k) 12
        else min (s.core.ent (0x3250 + k) 12 + 1) 0xFFFFFFFF) ∧
      Presents s t 36 0x0805 (d8 k ++ d8 br ++ d16 (s.core.ent (0x3250 + k) 10) ++ d16 (s.core.ent (0x3250 + k) 11)) ∧
      Moves (fun x => x = entKey (0x3250 + k) 9 ∨ x = entKey (0x3250 + k) 12 ∨ footPoints x ∨ ∃ p, p < 32 ∧ footGuard p x) s t)) ∧
  (∀ (k : Fin 2) (s : State), s.core.phase = .ready → s.core.ent (0x3260 + k) 1 = 1 →
    (s.core.ent (0x3260 + k) 4 = 0 ∨ s.core.ent (0x3260 + k) 4 = 3) →
    Ends (.coexRequest k) s (fun t => t.core.ent (0x3260 + k) 4 = 1 ∧ (t.core.coex k).cut = true ∧
      (t.core.coex k).grantAt = some (s.core.now + 393) ∧
      Moves (fun x => x = entKey (0x3260 + k) 4 ∨ onPaths [0x2903] x ∨ x = entKey 0x3180 5 ∨ footFec x) s t)) ∧
  (∀ (k : Fin 2) (s : State), s.core.ent (0x3260 + k) 4 = 1 → s.core.reached (s.core.coex k).grantAt = true →
    Ends (.coexGrant k) s (fun t => t.core.ent (0x3260 + k) 4 = 2 ∧ (t.core.coex k).gnt = true ∧
      t.core.ent (0x3260 + k) 5 = min (s.core.ent (0x3260 + k) 5 + 1) 0xFFFFFFFF ∧ t.core.entBit 0x3200 0 (6 + k) = true ∧
      Moves (fun x => x = entKey (0x3260 + k) 4 ∨ x = entKey (0x3260 + k) 5 ∨ x = entKey 0x3200 0) s t)) ∧
  (∀ (k : Fin 2) (s : State), (s.core.ent (0x3260 + k) 4 = 1 ∨ s.core.ent (0x3260 + k) 4 = 2) →
    Ends (.coexRelease k) s (fun t => t.core.ent (0x3260 + k) 4 = 3 ∧ (t.core.coex k).gnt = false ∧
      (t.core.coex k).resumeAt = some (s.core.now + 393) ∧ t.core.entBit 0x3200 0 (6 + k) = false ∧
      (s.core.ent (0x3260 + k) 4 = 2 →
        t.core.ent (0x3260 + k) 7 = min (2 ^ 32 - 1) (s.core.now - (s.core.coex k).grantedAt)) ∧
      Moves (fun x => x = entKey (0x3260 + k) 4 ∨ x = entKey (0x3260 + k) 7 ∨ x = entKey 0x3200 0) s t)) ∧
  (∀ (k : Fin 2) (s : State), s.core.ent (0x3260 + k) 4 = 3 → s.core.reached (s.core.coex k).resumeAt = true →
    Ends (.coexResume k) s (fun t => t.core.ent (0x3260 + k) 4 = 0 ∧ (t.core.coex k).cut = false ∧
      (t.core.coex k).resumeAt = none ∧ Moves (fun x => x = entKey (0x3260 + k) 4) s t)) ∧
  (∀ (k : Fin 2) (s : State), s.core.ent (0x3260 + k) 4 = 2 → (s.core.coex k).overdue = false →
    (s.core.coex k).grantedAt + s.core.ent (0x3260 + k) 3 * ms < s.core.now →
    Ends (.coexGrantOverdue k) s (fun t => (t.core.coex k).overdue = true ∧
      t.core.ent (0x3260 + k) 6 = min (s.core.ent (0x3260 + k) 6 + 1) 0xFFFFFFFF ∧
      Presents s t 36 0x0807 (d8 k ++ d32 (s.core.now - (s.core.coex k).grantedAt)) ∧
      Moves (fun x => x = entKey (0x3260 + k) 6) s t))

/-- The Signal Box: CONTROL_PERIOD_START counts a whole period and latches the encoders; OUTPUT_PHASE shows each slot's state
and writes its output, but in HOLD, or abandons a run that is late (R63, R64, R211, R214, R228). The axes: PWM_PERIOD, encoder edges, index and stall, and
FAULT_CLEAR (R232 to R236). The model's own choices: log entries 67, 68. -/
def Obligations.SignalBoxMoments : Prop :=
  (∀ (s : State), s.core.periodStarts = true → (s.core.isStandby && s.core.paired) = false →
    Ends .controlPeriodStart s (fun t => t.core.time.period = some s.core.clock ∧ t.core.time.outputsDone = false ∧
      (∀ x, s.core.time.period = some x → (x + s.core.tc) % 2 ^ 64 = s.core.clock →
        t.core.ent 0x1242 0 = (s.core.ent 0x1242 0 + 1) % 2 ^ 32) ∧
      ((∀ x, s.core.time.period = some x → (x + s.core.tc) % 2 ^ 64 ≠ s.core.clock) →
        t.core.ent 0x1242 0 = s.core.ent 0x1242 0) ∧
      (∀ a, a < 2 → t.core.ent (0x4801 + a * 16) 2 =
        rawOf 32 (wrapS 32 (s.core.entS 32 (0x4801 + a * 16) 1 - (s.core.axis a).latched)) ∧
        (t.core.axis a).latched = s.core.entS 32 (0x4801 + a * 16) 1) ∧
      Moves (fun k => k = entKey 0x1242 0 ∨ onPaths [0x205] k ∨ footSlots k ∨
        ∃ a, a < 2 ∧ k = entKey (0x4801 + a * 16) 2) s t)) ∧
  (∀ (x : Nat) (s : State), s.core.time.outputsDone = false → s.core.time.period = some x →
    (x + s.core.ent 0x4381 0) % 2 ^ 64 = s.core.clock →
    (∀ n, n < 64 → ∀ p, s.core.cfg.levelPath n = some p → p < 32) →
    Ends .outputPhase s (fun t => t.core.time.outputsDone = true ∧
      (∀ n r, n < 64 → (s.core.slot n).next = some r → (t.core.slot n).next = none ∧
        (r.late = false → r.holds = false → t.core.ent (sIdx n 4) 2 = rawOf 32 r.out) ∧
        (r.late = false → t.core.ent (sIdx n 4) 1 = r.state ∧ t.core.ent (sIdx n 4) 5 = r.stale ∧
          (r.holds = true → t.core.ent (sIdx n 4) 2 = s.core.ent (sIdx n 4) 2)) ∧
        (r.late = true → t.core.ent (sIdx n 4) 1 = s.core.ent (sIdx n 4) 1 ∧
          t.core.ent (sIdx n 4) 5 = s.core.ent (sIdx n 4) 5) ∧
        (r.late = true → t.core.ent (sIdx n 4) 2 = s.core.ent (sIdx n 4) 2 ∧
          t.core.ent (sIdx n 4) 7 = min (s.core.ent (sIdx n 4) 7 + 1) 0xFFFFFFFF)) ∧
      Moves (fun k => footSlots k ∨ (∃ p, p < 32 ∧ footPath p k) ∨
        onPaths [0x202, 0x203, 0x205, 0x1B04, 0x1B05, 0x1B06] k) s t)) ∧
  (∀ (a : Fin 2) (s : State), s.core.phase = .ready → s.core.ent (0x4800 + a * 16) 1 = 1 →
    s.core.clock % s.core.cfg.pwmPeriod a = 0 →
    Ends (.pwmPeriod a) s (fun t =>
      t.core.ent (0x4801 + a * 16) 5 = rawOf 32 (if s.core.axesHeld = true then 0 else s.core.axisDuty a) ∧
      (t.core.axis a).periodStart = s.core.now ∧ Moves (fun k => k = entKey (0x4801 + a * 16) 5) s t)) ∧
  (∀ (a : Fin 2) (la lb : Bool) (s : State), s.core.awake = true →
    let i := 0x4801 + a.val * 16
    let dA : Bool := la != (s.core.axis a).levelA
    let dB : Bool := lb != (s.core.axis a).levelB
    Ends (.encoderEdge a la lb) s (fun t => (t.core.axis a).levelA = la ∧ (t.core.axis a).levelB = lb ∧
      (dA = true → dB = true → s.core.ent (0x4800 + a * 16) 1 = 1 → t.core.ent i 3 = 3 ∧ t.core.ent i 4 = 1 ∧
        t.core.ent i 7 = min (s.core.ent i 7 + 1) 0xFFFFFFFF ∧
        Presents s t 37 0x0906 (d8 (0x80 + a) ++ d8 1 ++ d32 (s.core.ent i 1)) ∧
        Moves (fun k => k = entKey i 3 ∨ k = entKey i 4 ∨ k = entKey i 7) s t) ∧
      (dA = dB → (dA = false ∨ s.core.ent (0x4800 + a * 16) 1 ≠ 1) → Moves (fun _ => False) s t) ∧
      (dA ≠ dB → t.core.ent i 1 = rawOf 32 (wrapS 32 (s.core.entS 32 i 1 +
          (if (if dA then la != lb else la == lb) == Config.encoderUp then 1 else -1))) ∧
        Moves (fun k => k = entKey i 1) s t))) ∧
  (∀ (a : Fin 2) (s : State), s.core.awake = true →
    let i := 0x4801 + a.val * 16
    let rev := s.core.ent (0x4800 + a * 16) 6
    let pos := s.core.entS 32 i 1
    let off := if rev = 0 then 0 else (wrapS 32 (pos - s.core.entS 32 i 6)) % (rev : Int)
    Ends (.encoderIndex a) s (fun t => (t.core.axis a).indexed = true ∧
      (s.core.ent i 3 = 1 → t.core.ent i 1 = s.core.ent (0x4800 + a * 16) 8 ∧ t.core.ent i 6 = s.core.ent (0x4800 + a * 16) 8 ∧
        t.core.ent i 3 = 2 ∧ Moves (fun k => k = entKey i 1 ∨ k = entKey i 3 ∨ k = entKey i 6) s t) ∧
      (s.core.ent i 3 ≠ 1 → t.core.ent i 6 = rawOf 32 pos ∧
        (s.core.ent i 3 = 2 → rev ≠ 0 → (s.core.axis a).indexed = true → 4 < off → off < (rev : Int) - 4 →
          t.core.ent i 3 = 3 ∧ t.core.ent i 4 = 2 ∧ Presents s t 37 0x0906 (d8 (0x80 + a) ++ d8 2 ++ d32 (s.core.ent i 1))) ∧
        Moves (fun k => k = entKey i 3 ∨ k = entKey i 4 ∨ k = entKey i 6 ∨ k = entKey i 7) s t))) ∧
  (∀ (a : Fin 2) (s : State), s.core.stalled a = true →
    let i := 0x4801 + a.val * 16
    Ends (.encoderStall a) s (fun t => t.core.ent i 3 = 3 ∧ t.core.ent i 4 = 3 ∧
      t.core.ent i 7 = min (s.core.ent i 7 + 1) 0xFFFFFFFF ∧
      Presents s t 37 0x0906 (d8 (0x80 + a) ++ d8 3 ++ d32 (s.core.ent i 1)) ∧
      Moves (fun k => k = entKey i 3 ∨ k = entKey i 4 ∨ k = entKey i 7) s t)) ∧
  (∀ (o : Origin) (a : Fin 2) (s : State), Accepts s o (0x4801 + a * 16) 8 (d8 1) →
    let i := 0x4801 + a.val * 16
    let rev := s.core.ent (0x4800 + a * 16) 6
    Ends (.faultClear o a 1) s (fun t =>
      (s.core.ent (0x4800 + a * 16) 1 ≠ 1 → t.core.ent i 8 = 1 ∧ Writes (fun k => k = entKey i 8) s t) ∧
      (s.core.ent (0x4800 + a * 16) 1 = 1 → t.core.ent i 8 = 0 ∧
        t.core.ent i 3 = (if s.core.ent 0x6121 0 = 0 then 3 else if rev = 0 then 2 else 1) ∧
        t.core.ent i 4 = (if s.core.ent 0x6121 0 = 0 then 3 else 0) ∧
        t.core.ent i 1 = (if rev = 0 then s.core.ent (0x4800 + a * 16) 8 else s.core.ent i 1) ∧
        Presents s t 37 0x0906 (d8 (0x80 + a) ++ d8 0 ++ d32 (t.core.ent i 1)) ∧
        Writes (fun k => k = entKey i 1 ∨ k = entKey i 3 ∨ k = entKey i 4 ∨ k = entKey i 7 ∨ k = entKey i 8) s t)))

/-- The roles of a pair (R245 to R252): the partner's timeout, its token lost, returned and at fault, PREEMPT_I and its
window, and the claim after a strap conflict. The model's own choice: log entry 81. -/
def Obligations.TwinRoles : Prop :=
  (∀ (s : State), s.core.partnerOverdue = true →
    Ends .twinPartnerTimeout s (fun t =>
      t.core.ent 0x5001 0 = (if s.core.isPrimary = false ∧ s.core.twin.preemptIn = true then 2 else 1) ∧
      t.core.ent 0x5002 0 = 3 ∧ Moves footTwin s t)) ∧
  (∀ (s : State), s.core.twinOn = true → s.core.phase = .ready → s.core.tokenSeen = true →
    let joins := s.core.ent 0x5002 0 = 1 ∧ s.core.isStandby = true
    let fading := s.core.entBit 0x5000 0 5 = true
    let claims := (s.core.isStandby = true ∨ (fading ∧ s.core.isActive = true ∧ s.core.twin.preemptOut = false)) ∧
      ¬ (s.core.twin.yielded = true ∧ s.core.linkUp = true)
    Ends .tokenLost s (fun t => Presents s t 38 0x0A03 (d32 (s.core.clock + 2 ^ 64 - 26)) ∧
      (claims → t.core.twin.claimAt = some (s.core.now + 1) ∧ t.core.twin.driversAt = some (s.core.now + 12) ∧
        t.core.twin.openAt = s.core.now + 17) ∧
      (¬ joins ∨ 3 ≤ s.core.ent 0x5040 2 ∨ s.core.twin.copied = [] →
        t.core.entBit 0x5000 0 2 = false ∧ t.core.entBit 0x5000 0 5 = false ∧
        t.core.ent 0x5004 0 = (if fading then 4 else s.core.ent 0x5004 0) ∧
        t.core.ent 0x5002 0 = (if s.core.paired = true then 3 else s.core.ent 0x5002 0) ∧
        t.core.ent 0x5020 3 = min (s.core.ent 0x5020 3 + 1) 0xFFFFFFFF ∧
        (claims → s.core.isStandby = true → t.core.ent 0x5020 1 = min (s.core.ent 0x5020 1 + 1) 0xFFFFFFFF) ∧
        (¬ joins → Moves (fun k => footTwin k ∨ k = entKey 0x5004 0 ∨ k = entKey 0x5020 1 ∨ k = entKey 0x5020 3) s t) ∧
        (joins → 3 ≤ s.core.ent 0x5040 2 → t.core.ent 0x5041 0 = cdbRaw (-1000) ∧
          t.core.ent 0x5020 8 = min (s.core.ent 0x5020 8 + 1) 0xFFFFFFFF ∧
          t.core.ent 0x3180 6 = min (s.core.ent 0x3180 6 + 1) 0xFFFFFFFF ∧
          Presents s t 38 0x0A07 (d8 (s.core.ent 0x5040 2 - 1))) ∧
        Moves (fun k => footTwin k ∨ footFrame k ∨ (∃ p, p < 32 ∧ footReset p k) ∨ k = entKey 0x5004 0 ∨ k = entKey 0x5041 0 ∨
          k = entKey 0x5020 1 ∨ k = entKey 0x5020 3 ∨ k = entKey 0x5020 8 ∨ k = entKey 0x3180 6) s t))) ∧
  (∀ (s : State), s.core.twinOn = true → s.core.phase = .ready → s.core.tokenSeen = false →
    Ends .tokenReturn s (fun t => t.core.entBit 0x5000 0 2 = true ∧ t.core.entBit 0x5000 0 8 = false ∧
      t.core.twin.tokenMissing = none ∧
      (s.core.ent 0x5001 0 ≠ 0 → Moves (fun k => k = entKey 0x5000 0) s t) ∧
      (s.core.ent 0x5001 0 = 0 → t.core.ent 0x5002 0 = 3 ∧
        t.core.ent 0x5001 0 = (if s.core.isPrimary = true ∧ s.core.twin.preemptIn = false then 1 else 2) ∧
        Moves footTwin s t))) ∧
  (∀ (n : Nat) (s : State), s.core.twinOn = true → s.core.linkUp = true → s.core.tokenSeen = false →
    s.core.entBit 0x5000 0 8 = false → s.core.twin.tokenMissing = some n → n + second ≤ s.core.now →
    Ends .tokenWireFault s (fun t => t.core.entBit 0x5000 0 8 = true ∧ Presents s t 38 0x0A09 [] ∧
      Moves (fun k => k = entKey 0x5000 0) s t)) ∧
  (∀ (s : State), s.core.twinOn = true → s.core.phase = .ready → s.core.twin.preemptIn = false →
    let own := s.core.twin.preemptOut = true
    let early := s.core.now ≤ s.core.twin.assertedAt + 64
    let equal := s.core.entBit 0x5000 0 7 = true
    let yields : State → Prop := fun t => t.core.ent 0x5001 0 = 2 ∧ t.core.twin.preemptOut = false ∧
      t.core.twin.yielded = true ∧ t.core.ent 0x5002 0 = (if s.core.paired = true then 3 else s.core.ent 0x5002 0)
    Ends .preemptRise s (fun t => t.core.twin.preemptIn = true ∧
      (s.core.ent 0x5001 0 = 0 → t.core.ent 0x5001 0 = 2 ∧ t.core.ent 0x5002 0 = 3) ∧
      (s.core.ent 0x5001 0 ≠ 0 → own → ¬ early → yields t) ∧
      (s.core.ent 0x5001 0 ≠ 0 → own → early → equal → yields t ∧
        t.core.twin.reclaimAt = some (s.core.now + 256 + 4 * (serialNo.getD 0 0).toNat)) ∧
      (s.core.ent 0x5001 0 ≠ 0 → own → early → ¬ equal → s.core.isPrimary = false → yields t) ∧
      (s.core.ent 0x5001 0 ≠ 0 → own → early → ¬ equal → s.core.isPrimary = true → t.core.twin.preemptOut = true ∧
        Moves (fun k => k = entKey 0x5000 0) s t) ∧
      (s.core.ent 0x5001 0 ≠ 0 → ¬ own → s.core.twin.swapPhase < 2 → t.core.entBit 0x5000 0 6 = true ∧
        Moves (fun k => k = entKey 0x5000 0) s t) ∧
      (¬ own → s.core.isActive = true → 2 ≤ s.core.twin.swapPhase → t.core.ent 0x5001 0 = 2 ∧ t.core.ent 0x5004 0 = 0 ∧
        t.core.twin.swapPhase = 0 ∧ t.core.ent 0x5020 2 = min (s.core.ent 0x5020 2 + 1) 0xFFFFFFFF ∧
        Presents s t 38 0x0A04 (d32 (s.core.ent 0x5005 0) ++ d8 0)) ∧
      (s.core.ent 0x5001 0 ≠ 0 → ¬ own → s.core.isActive = false → 2 ≤ s.core.twin.swapPhase → t.core.ent 0x5004 0 = 4 ∧
        t.core.twin.swapPhase = 0 ∧ Presents s t 38 0x0A04 (d32 (s.core.ent 0x5005 0) ++ d8 4)) ∧
      Moves (fun k => footTwin k ∨ k = entKey 0x5004 0 ∨ k = entKey 0x5020 2) s t)) ∧
  (∀ (s : State), s.core.reached s.core.twin.windowUntil = true →
    Ends .preemptWindowEnd s (fun t => t.core.twin = { s.core.twin with windowUntil := none } ∧ Moves (fun _ => False) s t)) ∧
  (∀ (s : State), s.core.reached s.core.twin.reclaimAt = true → s.core.isActive = false →
    Ends .strapConflictReclaim s (fun t => t.core.twin.reclaimAt = none ∧
      (s.core.twin.preemptIn = true → Moves (fun _ => False) s t) ∧
      (s.core.twin.preemptIn = false → t.core.ent 0x5001 0 = 1 ∧ t.core.twin.preemptOut = true ∧ t.core.twin.drivers = true ∧
        Moves footTwin s t)))

/-- Swaps (R253 to R255, R268, R269): a command is taken in PROTECTED with no swap in progress and starts at the first
multiple of 1,024 ticks at least 4,096 ticks later; the start, the handover of the drivers, the claim and the abort; the
take-back, a proving swap that falls due or is commanded, and the end of its dwell. The model's own choices: log entries 73,
74. -/
def Obligations.TwinSwaps : Prop :=
  (∀ (s : State),
    let at_ := ceilMul 1024 (s.core.clock + 4096) % 2 ^ 64
    let begins : Nat → State → Prop := fun kind t => t.core.ent 0x5004 0 = 1 ∧ t.core.ent 0x5005 0 = at_ ∧
      t.core.twin.swapTick = some at_ ∧ t.core.twin.swapPhase = 1 ∧ t.core.twin.swapKind = kind ∧ t.core.twin.swapOut = true
    let foot : Nat → Prop := fun k => k = entKey 0x5004 0 ∨ k = entKey 0x5005 0
    (∀ (o : Origin), Accepts s o 0x5004 0 (d8 1) → Ends (.swapCommand o 1) s (fun t => Writes foot s t ∧
      (s.core.ent 0x5002 0 ≠ 2 → t.core.ent 0x5004 0 = 2 ∧ t.core.twin = s.core.twin) ∧
      (s.core.ent 0x5002 0 = 2 → s.core.swapBusy = true → t.core.ent 0x5004 0 = 3 ∧ t.core.twin = s.core.twin) ∧
      (s.core.ent 0x5002 0 = 2 → s.core.swapBusy = false → begins 2 t))) ∧
    (∀ (o : Origin), Accepts s o 0x7010 7 (d8 1) → Ends (.proveNow o 1) s (fun t =>
      Writes (fun k => foot k ∨ k = entKey 0x7010 7) s t ∧
      (s.core.ent 0x5002 0 = 2 → s.core.swapBusy = true → t.core.ent 0x7010 7 = 3 ∧ t.core.twin = s.core.twin) ∧
      (s.core.ent 0x5002 0 ≠ 2 ∨ (s.core.swapBusy = false ∧ s.core.mayProve = false) →
        t.core.ent 0x7010 7 = 2 ∧ t.core.twin = s.core.twin) ∧
      (s.core.mayProve = true → t.core.ent 0x7010 7 = 0 ∧ begins 4 t))) ∧
    (s.core.phase = .ready → s.core.twinOn = true → s.core.swapBusy = false → s.core.ent 0x7010 1 ≠ 0 →
      s.core.provingDue ≤ s.core.clock → Ends .provingSwapDue s (fun t =>
        (s.core.mayProve = true → begins 4 t ∧ Moves foot s t) ∧
        (s.core.mayProve = false → t.core.ent 0x7010 6 = 3 ∧ t.core.twin = s.core.twin ∧
          Moves (fun k => k = entKey 0x7010 6) s t))) ∧
    (s.core.reached s.core.twin.dwellEnd = true → Ends .provingDwellEnd s (fun t =>
      let failed := 10 ≤ s.core.twin.differences
      let r := if failed then 2 else if s.core.watched = true then 1 else 4
      t.core.twin.dwellEnd = none ∧ t.core.ent 0x7010 6 = r ∧ t.core.ent 0x7010 4 = s.core.clock ∧
      t.core.persist = s.core.persist ++ [[(entKey 0x7010 4, s.core.clock)]] ∧
      Presents s t 38 0x0A0A (d8 r ++ dS16 (clampI (-32767) 32767 s.core.twin.maxDifference)) ∧
      (s.core.ent 0x5002 0 = 2 → begins (if failed then 0x34 else 0x24) t) ∧
      (s.core.ent 0x5002 0 ≠ 2 → t.core.twin.swapPhase = s.core.twin.swapPhase) ∧
      Moves (fun k => foot k ∨ k = entKey 0x7010 4 ∨ k = entKey 0x7010 6) s t))) ∧
  (∀ (s : State), s.core.swapReached 1 0 = true →
    Ends .swapStart s (fun t =>
      (s.core.ent 0x5002 0 ≠ 2 → t.core.ent 0x5004 0 = 4 ∧ t.core.twin.swapPhase = 0 ∧
        Presents s t 38 0x0A04 (d32 (s.core.ent 0x5005 0) ++ d8 4) ∧
        Moves (fun k => k = entKey 0x5000 0 ∨ k = entKey 0x5004 0) s t) ∧
      (s.core.ent 0x5002 0 = 2 → t.core.entBit 0x5000 0 5 = true ∧ t.core.twin.swapPhase = 2 ∧
        t.core.twin.windowUntil = some (s.core.now + 1280) ∧
        (s.core.twin.swapOut = true → t.core.twin.preemptOut = false) ∧
        (s.core.twin.swapOut = false → t.core.twin.preemptIn = false) ∧
        Presents s t 38 0x0A04 (d32 (s.core.ent 0x5005 0) ++ d8 1) ∧ Moves (fun k => k = entKey 0x5000 0) s t))) ∧
  (∀ (s : State), s.core.swapReached 2 1088 = true → s.core.edgeSoon = false →
    Ends .swapDriverHandover s (fun t => t.core.twin.swapPhase = 3 ∧
      (s.core.twin.swapOut = true → t.core.twin.drivers = false ∧ t.core.twin.driversAt = s.core.twin.driversAt) ∧
      (s.core.twin.swapOut = false → t.core.twin.driversAt = some (s.core.now + 1)) ∧ Moves (fun _ => False) s t)) ∧
  (∀ (s : State), s.core.swapReached 3 1152 = true → s.core.twin.swapOut = false →
    Ends .swapClaim s (fun t => t.core.ent 0x5001 0 = 1 ∧ t.core.twin.preemptOut = true ∧ t.core.twin.openAt = s.core.now ∧
      t.core.twin.swapPhase = 0 ∧ t.core.twin.swapTick = none ∧ t.core.ent 0x5004 0 = 0 ∧ t.core.entBit 0x5000 0 5 = false ∧
      t.core.ent 0x5020 2 = min (s.core.ent 0x5020 2 + 1) 0xFFFFFFFF ∧
      Presents s t 38 0x0A04 (d32 (s.core.ent 0x5005 0) ++ d8 0) ∧
      Moves (fun k => footTwin k ∨ k = entKey 0x5004 0 ∨ k = entKey 0x5020 2) s t)) ∧
  (∀ (s : State), s.core.swapReached 2 1280 = true ∨ s.core.swapReached 3 1280 = true → s.core.twin.swapOut = true →
    s.core.twin.preemptIn = false →
    Ends .swapAbort s (fun t => t.core.ent 0x5004 0 = 4 ∧ t.core.entBit 0x5000 0 5 = false ∧ t.core.twin.swapPhase = 0 ∧
      t.core.twin.preemptOut = true ∧ t.core.twin.drivers = true ∧
      Presents s t 38 0x0A04 (d32 (s.core.ent 0x5005 0) ++ d8 4) ∧
      Moves (fun k => k = entKey 0x5000 0 ∨ k = entKey 0x5004 0) s t)) ∧
  (∀ (n : Nat) (s : State), s.core.isStandby = true → s.core.isPrimary = true → s.core.ent 0x5002 0 = 2 →
    s.core.ent 0x5010 1 = 1 → s.core.swapBusy = false → s.core.twin.protectedSince = some n →
    n + s.core.ent 0x5010 2 * second ≤ s.core.now →
    Ends .takeBack s (fun t => t.core.twin.protectedSince = some s.core.now ∧
      (s.core.linkUp = true →
        t.core.twin.outbox = s.core.twin.outbox ++ [⟨0x0B, s.core.twin.recSeq, d8 2 ++ d8 3, 0⟩]) ∧
      Moves (fun _ => False) s t))

/-- Twin frames and joins (R256 to R267): a frame sent and one received, the break of the stream; the start of a join, the
join and withdrawal commands, the steps of reintegration, its end, and the easing of its backoff. The self-tests (R270). The
model's own choices: log entries 72, 73, 77, 79. -/
def Obligations.TwinFramesAndJoins : Prop :=
  (∀ (s : State), s.core.twinOn = true → s.core.phase = .ready → s.core.clock % 128 = 0 →
    s.core.twin.sentFrame = [] ∨ field s.core.twin.sentFrame 8 8 ≠ s.core.clock →
    Ends .twinFrameSend s (fun t =>
      let f := t.core.twin.sentFrame
      t.core.twin.frameSeq = (s.core.twin.frameSeq + 1) % 2 ^ 16 ∧ f.length = 768 ∧ field f 0 2 = 0x2B6E ∧
      field f 4 4 = s.core.ent 0x5003 0 % 2 ^ 32 ∧ field f 8 8 = s.core.clock % 2 ^ 64 ∧ field f 760 4 = crc32 (f.take 760) ∧
      Moves (fun _ => False) s t)) ∧
  (∀ (f : List Byte) (s : State), s.core.twinOn = true → s.core.phase = .ready →
    let good := f.length = 768 ∧ field f 0 2 = 0x2B6E ∧ field f 760 4 = crc32 (f.take 760)
    Ends (.twinFrameReceive f) s (fun t =>
      (good → t.core.entBit 0x5000 0 3 = true ∧ t.core.twin.badFrames = 0 ∧ t.core.twin.lastFrame = s.core.now ∧
        Moves (fun k => stagedKey k = false ∨ footStep k) s t) ∧
      (¬ good → t.core.ent 0x5020 7 = min (s.core.ent 0x5020 7 + 1) 0xFFFFFFFF ∧
        (s.core.twin.badFrames = 0 → t.core.twin.badFrames = 1 ∧ Moves (fun k => k = entKey 0x5020 7) s t) ∧
        (s.core.twin.badFrames ≠ 0 → t.core.twin.badFrames = 0 ∧ t.core.entBit 0x5000 0 3 = false ∧
          t.core.ent 0x5002 0 = (if s.core.paired = true then 3 else s.core.ent 0x5002 0) ∧
          Moves (fun k => footTwin k ∨ k = entKey 0x5020 7) s t)))) ∧
  (∀ (s : State), s.core.twinOn = true → s.core.linkUp = true →
    (2 ≤ s.core.twin.badFrames ∨ s.core.twin.lastFrame + 384 ≤ s.core.now) →
    Ends .twinStreamBreak s (fun t => t.core.entBit 0x5000 0 3 = false ∧ t.core.twin.badFrames = 0 ∧
      t.core.ent 0x5002 0 = (if s.core.paired = true then 3 else s.core.ent 0x5002 0) ∧ Moves footTwin s t)) ∧
  (∀ (n : Nat) (s : State), s.core.mayJoin = true → s.core.twin.conditionsSince = some n → n + 10 * second ≤ s.core.now →
    Ends .joinStart s (fun t => t.core.ent 0x5002 0 = 1 ∧ t.core.ent 0x5040 1 = 1 ∧ t.core.ent 0x5040 2 = 1 ∧
      t.core.twin.joinFrom = some s.core.now ∧ t.core.twin.copied = [] ∧
      Moves (fun k => footTwin k ∨ k = entKey 0x5040 1) s t)) ∧
  (∀ (o : Origin) (s : State), Accepts s o 0x5040 1 (d8 1) →
    let token := s.core.twin.token = true ∨ (s.core.twinOn = true ∧ s.core.ent 0x5008 0 = 6)
    let may := s.core.ent 0x5002 0 = 3 ∧ s.core.linkUp = true ∧ s.core.tokenSeen = true ∧ token ∧ s.core.ent 0x5001 0 ≠ 0
    Ends (.joinCommand o) s (fun t =>
      (s.core.ent 0x5002 0 = 1 → t.core.twin = s.core.twin ∧ Writes (fun _ => False) s t) ∧
      (s.core.ent 0x5002 0 ≠ 1 → t.core.twin.heldOut = false ∧ t.core.twin.failures = [] ∧
        (may → t.core.ent 0x5002 0 = 1 ∧ t.core.ent 0x5040 1 = 1 ∧ t.core.ent 0x5040 2 = 1) ∧
        (¬ may → t.core.ent 0x5040 1 = 2 ∧ t.core.ent 0x5002 0 = s.core.ent 0x5002 0) ∧
        Writes (fun k => footTwin k ∨ k = entKey 0x5040 1) s t))) ∧
  (∀ (o : Origin) (s : State), Accepts s o 0x5040 1 (d8 2) →
    Ends (.twinWithdraw o) s (fun t =>
      (s.core.twinOn = false → t.core.ent 0x5040 1 = 2 ∧ Writes (fun k => k = entKey 0x5040 1) s t) ∧
      (s.core.twinOn = true → t.core.ent 0x5008 0 = 6 ∧ t.core.twin.token = false ∧ t.core.ent 0x5040 1 = 0 ∧
        t.core.ent 0x5002 0 = (if s.core.paired = true then 3 else s.core.ent 0x5002 0) ∧
        Writes (fun k => footTwin k ∨ k = entKey 0x5040 1) s t))) ∧
  (∀ (s : State), s.core.stepReady = true →
    Ends .reintegrationStepDone s (fun t => t.core.ent 0x5040 2 = s.core.ent 0x5040 2 + 1 ∧ t.core.twin.blocks = [] ∧
      t.core.twin.copyEnd = none ∧ Beside s t ∧
      (s.core.ent 0x5040 2 = 3 → Moves (fun k => k = entKey 0x5040 2) s t))) ∧
  (∀ (s : State), s.core.ent 0x5002 0 = 1 → s.core.isStandby = true → s.core.ent 0x5040 2 = 6 → s.core.verified = true →
    let d := (s.core.now - s.core.twin.joinFrom.getD s.core.now) % 2 ^ 32
    Ends .reintegrationComplete s (fun t => t.core.ent 0x5002 0 = 2 ∧ t.core.ent 0x5040 1 = 0 ∧ t.core.ent 0x5040 2 = 7 ∧
      t.core.ent 0x5040 3 = d ∧ t.core.ent 0x5020 4 = min (s.core.ent 0x5020 4 + 1) 0xFFFFFFFF ∧
      t.core.entBit 0x5000 0 4 = true ∧ t.core.entBit 0x5000 0 9 = false ∧ Presents s t 38 0x0A06 (d8 6 ++ d32 d) ∧
      Moves (fun k => footTwin k ∨ k = entKey 0x5040 1 ∨ k = entKey 0x5040 3 ∨ k = entKey 0x5020 4) s t)) ∧
  (∀ (n : Nat) (s : State), s.core.ent 0x5002 0 = 1 → s.core.twin.joinFrom = some n →
    n + stepLimit (s.core.ent 0x5040 2) < s.core.now →
    let d := (s.core.now - n) % 2 ^ 32
    let l := s.core.twin.failures.filter (fun t => s.core.now < t + 3600 * second)
    Ends .reintegrationAbandon s (fun t => t.core.ent 0x5002 0 = 3 ∧ t.core.ent 0x5040 1 = 3 ∧ t.core.ent 0x5040 3 = d ∧
      t.core.ent 0x5040 4 = min 16 (l.length + 1) ∧ t.core.ent 0x5020 5 = min (s.core.ent 0x5020 5 + 1) 0xFFFFFFFF ∧
      (s.core.ent 0x5030 6 < l.length + 1 → t.core.twin.heldOut = true) ∧
      Presents s t 38 0x0A06 (d8 (s.core.ent 0x5040 2 - 1) ++ d32 d) ∧
      Moves (fun k => footTwin k ∨ (entKey 0x5040 1 ≤ k ∧ k ≤ entKey 0x5040 4) ∨ k = entKey 0x5020 5) s t)) ∧
  (∀ (s : State), s.core.reached s.core.twin.easeAt = true → s.core.cdb 0x5041 0 < 0 →
    Ends .reintegrationBackoffEase s (fun t => t.core.ent 0x5041 0 = cdbRaw (min 0 (s.core.cdb 0x5041 0 + 100)) ∧
      Moves (fun k => footMode k ∨ k = entKey 0x5041 0) s t)) ∧
  (∀ (s : State),
    let bench := s.core.mode = mDepot ∨ s.core.mode = mShunt
    let serving := s.core.mode = mRun ∨ s.core.mode = mCaution
    let fed := allPaths.filter (fun p => s.core.cfg.configured p &&
      (s.core.cfg.rfinsOf (s.core.cfg.source p)).contains (s.core.ent 0x7000 3))
    let guards := s.core.ttRunning = true ∧ ∃ t ∈ s.core.cfg.intervals, t.1 = 2 ∧ 1024 + t.2.1 ≤ t.2.2
    let starts : Nat → State → Prop := fun n t => t.core.twin.selfTest = some n ∧ t.core.ent 0x7000 2 = 1
    let answers : Nat → Nat → State → Prop := fun n r t => t.core.twin.selfTest = none ∧ t.core.ent 0x7000 2 = r ∧
      Presents s t 38 0x0A0C (d8 n ++ d8 r)
    let foot : Nat → Prop := fun k => k = entKey 0x7000 2
    (∀ (o : Origin), Accepts s o 0x7000 1 (d8 1) → Ends (.selfTestReceive o) s (fun t =>
      (s.core.twin.selfTest ≠ none → t.core.twin = s.core.twin ∧ Writes (fun _ => False) s t) ∧
      (s.core.twin.selfTest = none → Writes (fun k => footTwin k ∨ foot k) s t ∧
        (bench → starts 1 t ∧ Writes foot s t) ∧
        (¬ bench → ¬ serving → answers 1 4 t ∧ Writes foot s t) ∧
        (serving → s.core.ent 0x5002 0 = 2 → s.core.isStandby = true → starts 1 t ∧ t.core.ent 0x5002 0 = 3) ∧
        (serving → s.core.ent 0x5002 0 = 2 → s.core.isStandby = false → answers 1 3 t ∧ Writes foot s t) ∧
        (serving → s.core.ent 0x5002 0 ≠ 2 → fed ≠ [] → (∀ p ∈ fed, s.core.cfg.isTdd p = true) → guards →
          starts 3 t ∧ Writes foot s t) ∧
        (serving → s.core.ent 0x5002 0 ≠ 2 → fed = [] ∨ (∃ p ∈ fed, s.core.cfg.isTdd p = false) ∨ ¬ guards →
          answers 1 4 t ∧ Writes foot s t)))) ∧
    (∀ (o : Origin), Accepts s o 0x7000 1 (d8 2) → Ends (.selfTestLink o) s (fun t =>
      (s.core.twin.selfTest ≠ none → t.core.twin = s.core.twin ∧ Writes (fun _ => False) s t) ∧
      (s.core.twin.selfTest = none → Writes foot s t ∧
        (s.core.twinOn = true → bench ∨ serving → starts 2 t) ∧
        (s.core.twinOn = false ∨ (¬ bench ∧ ¬ serving) → answers 2 4 t)))) ∧
    (∀ (passed : Bool) (n : Nat), s.core.twin.selfTest = some n →
      n = 2 ∨ s.core.twin.selfTestAt + 2 * ms ≤ s.core.now → Ends (.selfTestDone passed) s (fun t =>
      answers (if n = 2 then 2 else 1) (if passed = true then 0 else 2) t ∧ Moves foot s t)))

/-- The Line (R278 to R300): lane lock, the loss of block lock and of frames, an FEC mismatch, a frame sent and one received,
a management packet, an address that lapses, and the ring's probes. The model's own choices: log entries 82, 84, 85. -/
def Obligations.LineMoments : Prop :=
  (∀ (q : Fin 3) (s : State),
    let i := 0x5110 + q.val
    let foot : Nat → Prop := fun k => stagedKey k = false
    let falls : Nat → State → Prop := fun new t => t.core.ent i 3 = new ∧
      Presents s t 39 0x0B01 (d8 q ++ d8 (s.core.ent i 3) ++ d8 new) ∧ t.core.entBit 0x5100 0 (5 + q) = false ∧
      t.core.ent i 8 = 0x80000000 ∧
      (3 ≤ s.core.ent i 3 → t.core.ent i 9 = min (s.core.ent i 9 + 1) 0xFFFFFFFF ∧ (t.core.port q).exchanges = 0) ∧
      Moves foot s t
    (s.core.awake = true → s.core.ent i 3 = 1 → s.core.ent i 1 = 1 → Ends (.laneLock q) s (fun t =>
      t.core.ent i 3 = 2 ∧ (t.core.port q).locked = true ∧ Presents s t 39 0x0B01 (d8 q ++ d8 1 ++ d8 2) ∧ Moves foot s t)) ∧
    (2 ≤ s.core.ent i 3 → Ends (.blockLockLoss q) s (fun t => falls 1 t ∧ (t.core.port q).locked = false)) ∧
    (3 ≤ s.core.ent i 3 → Ends (.lineFrameMissing q) s (falls 2)) ∧
    (∀ n, s.core.ent i 1 = 1 → (s.core.port q).fecFlagged = false → (s.core.port q).fecSince = some n →
      n + 100 * ms ≤ s.core.now → Ends (.fecMismatch q) s (fun t => (t.core.port q).fecFlagged = true ∧
        Presents s t 39 0x0B07 (d8 q) ∧ Moves (fun _ => False) s t)) ∧
    (s.core.awake = true → s.core.ticking = true → s.core.clock % 256 = 0 → s.core.ent i 1 = 1 →
      Ends (.lineFrameSend q) s (fun t =>
        let f := (s.core.clock + 2 ^ 64 - 256) % 2 ^ 64
        (t.core.port q).sentHeader = s.core.laneHeader q 0 f ++ s.core.laneHeader q 1 f ∧
        (t.core.port q).sentCells.length = 16 ∧ (∀ x ∈ (t.core.port q).sentCells, cellGood x = true) ∧
        (∀ e ∈ t.core.line.outflow, epPort e.1 = q.val → atOrBefore (f + 256) e.2.1 = true) ∧
        Moves (fun k => k = entKey 0x2807 (q + 1) ∨ k = entKey 0x5103 3 ∨ k = entKey 0x5103 5) s t)) ∧
    (∀ (fr : LineFrame), s.core.awake = true → 2 ≤ s.core.ent i 3 →
      let whole : List Byte → Nat → Prop := fun h lane => h.length = 16 ∧ field h 0 2 = 0x5B3C + lane ∧
        crc16 (h.take 14) = field h 14 2
      let tick := field fr.header0 4 8
      let good := whole fr.header0 0 ∧ whole fr.header1 1 ∧ field fr.header1 4 8 = tick
      let p := s.core.port q
      let run := if p.goodFrames ≠ 0 ∧ tick = (p.lastTick + 256) % 2 ^ 64 then p.goodFrames + 1 else 1
      let same := bit (field fr.header0 2 1) 2 = decide (s.core.ent i 2 = 1)
      Ends (.lineFrameReceive q fr) s (fun t => Moves foot s t ∧
        (¬ good → (t.core.port q).missing = p.missing + 1 ∧ t.core.ent i 15 = s.core.ent i 15 ∧
          t.core.ent i 3 = (if 1 ≤ p.missing ∧ 3 ≤ s.core.ent i 3 then 2 else s.core.ent i 3)) ∧
        (good → t.core.ent i 15 = (s.core.ent i 15 + 1) % 2 ^ 32 ∧ t.core.ent i 4 = field fr.header0 12 2 ∧
          (s.core.ent i 3 = 2 → ¬ (4 ≤ run ∧ same) → t.core.ent i 3 = 2) ∧
          (s.core.ent i 3 = 2 → 4 ≤ run → same → t.core.ent i 3 = 3 ∨ t.core.ent i 3 = 4) ∧
          (s.core.ent i 3 = 3 ∨ s.core.ent i 3 = 4 → t.core.ent i 3 = 3 ∨ t.core.ent i 3 = 4)))) ∧
    (∀ (x : List Byte), s.core.phase = .ready → s.core.framed q = true →
      let n := field x 8 2
      let whole := 12 ≤ x.length ∧ crc16 (x.take 10) = field x 10 2
      let sound := x.length = 16 + n ∧ 1 ≤ n ∧ n ≤ 1008 ∧ crc32 (x.take (12 + n)) = field x (12 + n) 4
      let own := field x 0 2 = s.core.address ∧ s.core.address ≠ 0
      let drops : Nat → State → Prop := fun sub t => t.core.ent 0x5130 sub = min (s.core.ent 0x5130 sub + 1) 0xFFFFFFFF ∧
        t.core.ent i 16 = min (s.core.ent i 16 + 1) 0xFFFFFFFF ∧
        Moves (fun k => k = entKey 0x5130 sub ∨ k = entKey i 16) s t
      Ends (.managementPacket q x) s (fun t => BesideLink s t ∧
        (¬ whole → drops 6 t) ∧ (whole → field x 6 2 = 0 → drops 5 t) ∧
        (whole → field x 6 2 ≠ 0 → own → ¬ sound → drops 7 t) ∧
        (whole → field x 6 2 ≠ 0 → own → sound → t.core.ent 0x5130 3 = (s.core.ent 0x5130 3 + 1) % 2 ^ 32) ∧
        Untouched (fun k => (entKey 0x5130 1 ≤ k ∧ k ≤ entKey 0x5130 7) ∨ k = entKey i 16 ∨ footAdmission k ∨ footJoins k ∨
          k = entKey 0x5103 1 ∨ k = entKey 0x5103 2 ∨ k = entKey 0x1133 4 ∨ k = entKey 0x1131 0 ∨ k = entKey 0x1134 0) s t))) ∧
  (∀ (a : Half) (e : Learned) (s : State), s.core.line.learned.find? a.toNat = some e → e.at_ + 600 * second ≤ s.core.now →
    Ends (.addressLapse a) s (fun t => t.core.line.learned.find? a.toNat = none ∧
      (∀ k, k ≠ a.toNat → t.core.line.learned.find? k = s.core.line.learned.find? k) ∧ Moves (fun _ => False) s t)) ∧
  (∀ (s : State), s.core.awake = true → s.core.ringTerminus = true → s.core.clock % ms = 0 →
    Ends .ringProbe s (fun t => t.core.line.probeAt = some s.core.now ∧
      t.core.ent 0x5130 1 = (s.core.ent 0x5130 1 + 1) % 2 ^ 32 ∧
      (s.core.framed 1 = true → ∃ x, (t.core.port 1).own =
        (s.core.port 1).own ++ [packetOf 0xFFFF s.core.address 0 (s.core.ent 0x5101 5) (d8 x)]) ∧
      (s.core.framed 1 = false → (t.core.port 1).own = (s.core.port 1).own) ∧
      Moves (fun k => k = entKey 0x5130 1) s t)) ∧
  (∀ (back : Bool) (s : State), s.core.ringTerminus = true → s.core.line.probeAt ≠ none →
    let third := back = true ∧ 2 ≤ s.core.line.probesBack
    let breaks := back = false ∧ s.core.ringClosed = true
    Ends (.ringProbeReturn back) s (fun t => t.core.line.probeAt = none ∧
      t.core.line.probesBack = (if back = true then min 3 (s.core.line.probesBack + 1) else 0) ∧
      (third → t.core.ringClosed = true ∧ (s.core.ringClosed = false → t.core.ent 0x5140 1 = 2)) ∧
      (breaks → t.core.ringClosed = false ∧ t.core.ent 0x5140 1 = 3 ∧
        t.core.ent 0x5140 2 = min (s.core.ent 0x5140 2 + 1) 0xFFFFFFFF ∧ ∃ l, Presents s t 39 0x0B02 l) ∧
      (¬ third → ¬ breaks → Moves (fun _ => False) s t) ∧
      Moves (fun k => k = entKey 0x5100 0 ∨ (entKey 0x5140 1 ≤ k ∧ k ≤ entKey 0x5140 3)) s t))

/-- Moments and commands of the timing, Guard, front-end, housekeeping and two-wire families end in a next state wherever
their condition holds: the pulse per second (R55 to R57), a synchronising reset (R105) and a ROM check (R114), reflected power
and NETSTOP_N (R170, R171), the Timetable, the switching outputs and the frame bursts (R186 to R195), Points and coexistence
(R199 to R203), the housekeeping converter (R373 to R381) and the two-wire channels (R388 to R392). -/
def Obligations.MomentsComplete : Prop :=
  ∀ (s : State),
    (s.core.awake = true → (2 ∈ s.core.sourceOrder ∨ s.core.time.setDeadline ≠ none) → Ends .ppsInEdge s (fun t =>
      t.core.time.ppsAccepted = s.core.time.ppsAccepted + 1 ∨ t.core.time.ppsAccepted = 0 ∨ t = s)) ∧
    (∀ l, s.core.time.ppsLast = some l →
      ((l + 3 * second + s.core.ent 0x122B 0 : Nat) : Int) < (s.core.clock : Int) - s.core.entS 16 0x122C 0 →
      Ends .ppsInLost s (fun t => t.core.time.ppsLast = none)) ∧
    (s.core.awake = true → s.core.entBit 0x122D 0 0 = true →
      (s.core.ent 0x1221 0 = 2 ∨ s.core.ent 0x1221 0 = 3 ∨ s.core.entBit 0x122D 0 1 = true) →
      ((s.core.clock : Int) - s.core.entS 32 0x122E 0) % 491520000 = 0 →
      Ends .ppsOutRise s (fun t => t.core.time.ppsOut = true)) ∧
    (s.core.reached s.core.time.ppsFall = true → Ends .ppsOutFall s (fun t => t.core.time.ppsOut = false)) ∧
    (∀ (o : Origin) (p : Fin 32), Accepts s o (pIdx p 9) 5 (d8 1) → s.core.entBit 0x110A 0 p = false →
      s.core.cfg.configured p = true → Ends (.synchronisingResetCommand o p 1) s (fun t =>
        (t.core.path p).resets = (s.core.path p).resets ++ [((s.core.clock / 128 + 1) * 128, 5)])) ∧
    (∀ good, s.core.phase = .ready → s.core.time.romNext ≤ s.core.now → Ends (.romCheck good) s (fun t =>
      t.core.time.romNext = s.core.now + 10 * second)) ∧
    (∀ n : Fin 8, s.core.latched = false → s.core.reached (s.core.refl n).liftAt = true →
      Ends (.reflectedMuteLift n) s (fun t => (t.core.refl n).liftAt = none)) ∧
    (∀ (n : Fin 8) g, s.core.latched = false → s.core.reflBacked n = true → (s.core.refl n).liftAt = none →
      (s.core.refl n).stale = false → (s.core.refl n).goodSince = some g → g + second ≤ s.core.now →
      Ends (.reflectedBackoffRelease n) s (fun t => (t.core.refl n).goodSince = none)) ∧
    (∀ n : Fin 8, s.core.ent (0x3140 + n) 1 = 1 → (s.core.refl n).stale = false →
      (s.core.refl n).lastFresh + 10 * ms ≤ s.core.now → Ends (.reflectedStale n) s (fun t => (t.core.refl n).stale = true)) ∧
    (s.core.awake = true → (s.core.ent 0x3103 3 = 0 ∨ s.core.guard.netAt < s.core.now) →
      Ends .netstopAssert s (fun t => t.core.ent 0x3103 3 = 1)) ∧
    (s.core.ent 0x3103 3 ≠ 0 → s.core.ent 0x6121 0 = 1 → s.core.guard.netAt + 10 * second ≤ s.core.now →
      s.core.latched = false → Ends .netstopRelease s (fun t => t.core.ent 0x3103 3 = 0)) ∧
    (s.core.periodDue = true → s.core.fe.jump = none → Ends .periodStart s (fun t =>
      t.core.ent 0x3203 3 = (s.core.ent 0x3203 3 + 1) % 2 ^ 32)) ∧
    (∀ i : Fin 64, s.core.entryDue i = true → Ends (.timetableEntry i) s (fun t => t.core.fe.entry = some i.val)) ∧
    (∀ (n : Fin 4) on, s.core.edgeDue (.trsw n) on = true → Ends (.switchingEdge (.trsw n) on) s (fun t =>
      t.core.trswOn n = on)) ∧
    (∀ b, s.core.searching = true → Ends (.syncBurstDetected b) s (fun t => t.core.fe.burstAt = s.core.now)) ∧
    (s.core.searching = true → 2 ≤ s.core.ent 0x3202 0 → s.core.ent 0x3202 0 ≤ 4 →
      s.core.fe.burstAt + 5 * ms * 2 ^ (s.core.ent 0x3201 5) ≤ s.core.now →
      Ends .syncBurstMissed s (fun t => t.core.fe.burstAt = s.core.now)) ∧
    (∀ n, s.core.ent 0x3202 0 = 4 → s.core.fe.holdSince = some n → n + s.core.holdLimit ≤ s.core.now →
      Ends .frameHoldoverExpiry s (fun t => t.core.ent 0x3202 0 = 5)) ∧
    (∀ k : Fin 2,
      (∀ a b, s.core.awake = true → s.core.ent (0x3250 + k) 3 = 2 → s.core.ent (0x3250 + k) 1 < 8 →
        (s.core.ent 0x3202 0 = 3 ∨ s.core.ent 0x3202 0 = 4) → Ends (.pointsBurst k a b) s (fun t =>
          t.core.ent (0x3250 + k) 10 = (match a with | some v => cdbRaw v | none => noCdb))) ∧
      (∀ x br, (s.core.points k).changeAt = some x → atOrBefore x s.core.clock = true →
        (s.core.points k).pending = some br → (s.core.isStandby && s.core.paired) = false →
        Ends (.pointsChange k) s (fun t => t.core.ent (0x3250 + k) 9 = br)) ∧
      (s.core.phase = .ready → s.core.ent (0x3260 + k) 1 = 1 →
        (s.core.ent (0x3260 + k) 4 = 0 ∨ s.core.ent (0x3260 + k) 4 = 3) →
        Ends (.coexRequest k) s (fun t => t.core.ent (0x3260 + k) 4 = 1)) ∧
      (s.core.ent (0x3260 + k) 4 = 1 → s.core.reached (s.core.coex k).grantAt = true →
        Ends (.coexGrant k) s (fun t => t.core.ent (0x3260 + k) 4 = 2)) ∧
      (s.core.ent (0x3260 + k) 4 = 1 ∨ s.core.ent (0x3260 + k) 4 = 2 →
        Ends (.coexRelease k) s (fun t => t.core.ent (0x3260 + k) 4 = 3)) ∧
      (s.core.ent (0x3260 + k) 4 = 3 → s.core.reached (s.core.coex k).resumeAt = true →
        Ends (.coexResume k) s (fun t => t.core.ent (0x3260 + k) 4 = 0)) ∧
      (s.core.ent (0x3260 + k) 4 = 2 → (s.core.coex k).overdue = false →
        (s.core.coex k).grantedAt + s.core.ent (0x3260 + k) 3 * ms < s.core.now →
        Ends (.coexGrantOverdue k) s (fun t => (t.core.coex k).overdue = true))) ∧
    (∀ (r : HkRun), s.core.hk.run = some r → s.core.hkRunDone = true → r.q < 4 → Ends .hkRunComplete s (fun t =>
      t.core.ent (0x6210 + r.q) 6 = (s.core.ent (0x6210 + r.q) 6 + 1) % 2 ^ 32)) ∧
    (∀ uv x, s.core.hk.slot = some x → x.start + 244 ≤ s.core.now → x.channel < 59 → x.kind = .urgent →
      Ends (.hkConversion uv) s (fun t => t.core.hk.urgent = s.core.hk.urgent.tail)) ∧
    (∀ c : Fin 4,
      (∀ scl sda, s.core.phase = .ready → s.core.twState c = 1 → (s.core.twc c).checked = false →
        (s.core.twc c).checkAt ≤ s.core.now → Ends (.twBusCheck c scl sda) s (fun t => (t.core.twc c).checked = scl)) ∧
      (∀ sda, (s.core.twState c = 1 ∨ s.core.twState c = 2 ∨ s.core.twState c = 3) →
        (s.core.twc c).highAt + s.core.ent (0x6300 + c) 3 * ms < s.core.now →
        Ends (.sclTimeout c sda) s (fun t => (t.core.twc c).running = none)) ∧
      (∀ sda, s.core.twState c = 4 → Ends (.sclRise c sda) s (fun t => t.core.entBit (0x6320 + c) 2 1 = sda)) ∧
      (∀ l i, (s.core.twc c).running = some i → (s.core.twc c).over (.done l) s.core.now = true →
        Ends (.twTransferDone c (.done l)) s (fun t =>
          t.core.ent (0x6320 + c) 3 = (s.core.ent (0x6320 + c) 3 + 1) % 2 ^ 32)) ∧
      (∀ n high, s.core.twState c = 3 → (s.core.twc c).clocked (nineClocksOf n high) s.core.now = true →
        Ends (.nineClockRecovery c n high) s (fun t =>
          t.core.ent (0x6320 + c) 6 = min (s.core.ent (0x6320 + c) 6 + 1) 0xFFFFFFFF)) ∧
      (∀ n high, s.core.twState c = 5 → s.core.reached (s.core.twc c).retryAt = true →
        (s.core.twc c).clocked (nineClocksOf n high) s.core.now = true →
        Ends (.sdaStuckRetry c n high) s (fun t =>
          t.core.ent (0x6320 + c) 6 = min (s.core.ent (0x6320 + c) 6 + 1) 0xFFFFFFFF)) ∧
      (s.core.twState c = 6 → s.core.reached (s.core.twc c).pulseEnd = true →
        Ends (.twResetDone c) s (fun t => (t.core.twc c).pulseEnd = none)) ∧
      (∀ o : Origin, Accepts s o (0x6310 + c) 5 (d8 1) → s.core.ent (0x6310 + c) 5 ≠ 1 → s.core.twState c ≠ 0 →
        s.core.twState c ≠ 5 → s.core.twState c ≠ 7 → Ends (.twTransferCommand o c 1) s (fun t =>
          t.core.ent (0x6310 + c) 5 = 1)) ∧
      (∀ o : Origin, Accepts s o (0x6300 + c) 6 (d8 1) → s.core.twState c ≠ 2 → s.core.twState c ≠ 3 →
        s.core.twState c ≠ 6 → Ends (.twResetCommand o c 1) s (fun t => t.core.twState c = 6)))

/-- Every step keeps the book and the non-volatile memory sound: at most 512 staged records, numbered in turn up to the next
sequence, and tables in canonical form (R401 to R404). The model's own choice: log entry 11. -/
def Obligations.StepsKeepTheBook : Prop :=
  ∀ (s t : State), s.BookSound → s.NvSound → step s = .next t → t.BookSound ∧ t.NvSound

/-- The part after reset has a sound book and a sound non-volatile memory. The model's own choice: log entry 10. -/
def Obligations.ResetBookSound : Prop := State.reset.BookSound ∧ State.reset.NvSound
end

