-- ==== Sys2Proof/Laws/State.lean ====
section
/-! SUPPORT. What each update of the state leaves as it was, field by field, so that no later proof unfolds a record
update. -/

set_option Elab.async false

namespace Sys2Proof.Machine

@[simp] theorem Core.setEntBit_eq (c : Core) (i sub k : Nat) (b : Bool) :
    c.setEntBit i sub k b = c.setEnt i sub (setBit (c.ent i sub) k b) := rfl
@[simp] theorem Core.setS_eq (c : Core) (w i sub : Nat) (v : Int) : c.setS w i sub v = c.setEnt i sub (rawOf w v) := rfl
@[simp] theorem Core.setPe_eq (c : Core) (p off sub v : Nat) : c.setPe p off sub v = c.setEnt (pIdx p off) sub v := rfl
@[simp] theorem Core.irq_eq (c : Core) (k : Nat) : c.irq k = c.setEnt 0x1134 0 (setBit (c.ent 0x1134 0) k true) := rfl
@[simp] theorem Core.setPersistent_eq (c : Core) (i sub v : Nat) :
    c.setPersistent i sub v = (c.setEnt i sub v).persistUnit [(entKey i sub, v)] := rfl
@[simp] theorem Core.wrapAdd_eq (c : Core) (w i sub n : Nat) :
    c.wrapAdd w i sub n = c.setEnt i sub ((c.ent i sub + n) % 2 ^ w) := rfl

@[simp] theorem Core.setEnt_phase (c : Core) (i sub v : Nat) : (c.setEnt i sub v).phase = c.phase := rfl
@[simp] theorem Core.setEnt_now (c : Core) (i sub v : Nat) : (c.setEnt i sub v).now = c.now := rfl
@[simp] theorem Core.setEnt_clock (c : Core) (i sub v : Nat) : (c.setEnt i sub v).clock = c.clock := rfl
@[simp] theorem Core.setEnt_ticking (c : Core) (i sub v : Nat) : (c.setEnt i sub v).ticking = c.ticking := rfl
@[simp] theorem Core.setEnt_since (c : Core) (i sub v : Nat) : (c.setEnt i sub v).since = c.since := rfl
@[simp] theorem Core.setEnt_resetLow (c : Core) (i sub v : Nat) : (c.setEnt i sub v).resetLow = c.resetLow := rfl
@[simp] theorem Core.setEnt_free (c : Core) (i sub v : Nat) : (c.setEnt i sub v).free = c.free := rfl
@[simp] theorem Core.setEnt_sticky (c : Core) (i sub v : Nat) : (c.setEnt i sub v).sticky = c.sticky := rfl
@[simp] theorem Core.setEnt_presented (c : Core) (i sub v : Nat) : (c.setEnt i sub v).presented = c.presented := rfl
@[simp] theorem Core.setEnt_seconds (c : Core) (i sub v : Nat) : (c.setEnt i sub v).seconds = c.seconds := rfl
@[simp] theorem Core.setEnt_persist (c : Core) (i sub v : Nat) : (c.setEnt i sub v).persist = c.persist := rfl
@[simp] theorem Core.setEnt_cal (c : Core) (i sub v : Nat) : (c.setEnt i sub v).cal = c.cal := rfl
@[simp] theorem Core.setEnt_latched (c : Core) (i sub v : Nat) : (c.setEnt i sub v).latched = c.latched := rfl
@[simp] theorem Core.setEnt_pend (c : Core) (i sub v : Nat) : (c.setEnt i sub v).pend = c.pend := rfl
@[simp] theorem Core.setEnt_ownerSeen (c : Core) (i sub v : Nat) : (c.setEnt i sub v).ownerSeen = c.ownerSeen := rfl
@[simp] theorem Core.setEnt_sched (c : Core) (i sub v : Nat) : (c.setEnt i sub v).sched = c.sched := rfl
@[simp] theorem Core.setEnt_heldLocal (c : Core) (i sub v : Nat) : (c.setEnt i sub v).heldLocal = c.heldLocal := rfl
@[simp] theorem Core.setEnt_later (c : Core) (i sub v : Nat) : (c.setEnt i sub v).later = c.later := rfl
@[simp] theorem Core.setEnt_time (c : Core) (i sub v : Nat) : (c.setEnt i sub v).time = c.time := rfl
@[simp] theorem Core.setEnt_los (c : Core) (i sub v : Nat) : (c.setEnt i sub v).los = c.los := rfl
@[simp] theorem Core.setEnt_rfins (c : Core) (i sub v : Nat) : (c.setEnt i sub v).rfins = c.rfins := rfl
@[simp] theorem Core.setEnt_paths (c : Core) (i sub v : Nat) : (c.setEnt i sub v).paths = c.paths := rfl
@[simp] theorem Core.setEnt_sinks (c : Core) (i sub v : Nat) : (c.setEnt i sub v).sinks = c.sinks := rfl
@[simp] theorem Core.setEnt_captures (c : Core) (i sub v : Nat) : (c.setEnt i sub v).captures = c.captures := rfl
@[simp] theorem Core.setEnt_guard (c : Core) (i sub v : Nat) : (c.setEnt i sub v).guard = c.guard := rfl
@[simp] theorem Core.setEnt_inbound (c : Core) (i sub v : Nat) : (c.setEnt i sub v).inbound = c.inbound := rfl
@[simp] theorem Core.setEnt_calibrateBy (c : Core) (i sub v : Nat) : (c.setEnt i sub v).calibrateBy = c.calibrateBy := rfl
@[simp] theorem Core.setEnt_powerDownBy (c : Core) (i sub v : Nat) : (c.setEnt i sub v).powerDownBy = c.powerDownBy := rfl
@[simp] theorem Core.setEnt_fe (c : Core) (i sub v : Nat) : (c.setEnt i sub v).fe = c.fe := rfl
@[simp] theorem Core.setEnt_box (c : Core) (i sub v : Nat) : (c.setEnt i sub v).box = c.box := rfl
@[simp] theorem Core.setEnt_axes (c : Core) (i sub v : Nat) : (c.setEnt i sub v).axes = c.axes := rfl
@[simp] theorem Core.setEnt_twin (c : Core) (i sub v : Nat) : (c.setEnt i sub v).twin = c.twin := rfl
@[simp] theorem Core.setEnt_line (c : Core) (i sub v : Nat) : (c.setEnt i sub v).line = c.line := rfl
@[simp] theorem Core.setEnt_ident (c : Core) (i sub v : Nat) : (c.setEnt i sub v).ident = c.ident := rfl
@[simp] theorem Core.setEnt_therm (c : Core) (i sub v : Nat) : (c.setEnt i sub v).therm = c.therm := rfl
@[simp] theorem Core.setEnt_supply (c : Core) (i sub v : Nat) : (c.setEnt i sub v).supply = c.supply := rfl
@[simp] theorem Core.setEnt_hk (c : Core) (i sub v : Nat) : (c.setEnt i sub v).hk = c.hk := rfl
@[simp] theorem Core.setEnt_tw (c : Core) (i sub v : Nat) : (c.setEnt i sub v).tw = c.tw := rfl

@[simp] theorem Core.emit_phase (c : Core) (source code : Nat) (data : List Byte) : (c.emit source code data).phase = c.phase := rfl
@[simp] theorem Core.emit_now (c : Core) (source code : Nat) (data : List Byte) : (c.emit source code data).now = c.now := rfl
@[simp] theorem Core.emit_clock (c : Core) (source code : Nat) (data : List Byte) : (c.emit source code data).clock = c.clock := rfl
@[simp] theorem Core.emit_ticking (c : Core) (source code : Nat) (data : List Byte) : (c.emit source code data).ticking = c.ticking := rfl
@[simp] theorem Core.emit_since (c : Core) (source code : Nat) (data : List Byte) : (c.emit source code data).since = c.since := rfl
@[simp] theorem Core.emit_resetLow (c : Core) (source code : Nat) (data : List Byte) : (c.emit source code data).resetLow = c.resetLow := rfl
@[simp] theorem Core.emit_free (c : Core) (source code : Nat) (data : List Byte) : (c.emit source code data).free = c.free := rfl
@[simp] theorem Core.emit_dict (c : Core) (source code : Nat) (data : List Byte) : (c.emit source code data).dict = c.dict := rfl
@[simp] theorem Core.emit_sticky (c : Core) (source code : Nat) (data : List Byte) : (c.emit source code data).sticky = c.sticky := rfl
@[simp] theorem Core.emit_seconds (c : Core) (source code : Nat) (data : List Byte) : (c.emit source code data).seconds = c.seconds := rfl
@[simp] theorem Core.emit_persist (c : Core) (source code : Nat) (data : List Byte) : (c.emit source code data).persist = c.persist := rfl
@[simp] theorem Core.emit_cal (c : Core) (source code : Nat) (data : List Byte) : (c.emit source code data).cal = c.cal := rfl
@[simp] theorem Core.emit_latched (c : Core) (source code : Nat) (data : List Byte) : (c.emit source code data).latched = c.latched := rfl
@[simp] theorem Core.emit_pend (c : Core) (source code : Nat) (data : List Byte) : (c.emit source code data).pend = c.pend := rfl
@[simp] theorem Core.emit_ownerSeen (c : Core) (source code : Nat) (data : List Byte) : (c.emit source code data).ownerSeen = c.ownerSeen := rfl
@[simp] theorem Core.emit_sched (c : Core) (source code : Nat) (data : List Byte) : (c.emit source code data).sched = c.sched := rfl
@[simp] theorem Core.emit_heldLocal (c : Core) (source code : Nat) (data : List Byte) : (c.emit source code data).heldLocal = c.heldLocal := rfl
@[simp] theorem Core.emit_later (c : Core) (source code : Nat) (data : List Byte) : (c.emit source code data).later = c.later := rfl
@[simp] theorem Core.emit_time (c : Core) (source code : Nat) (data : List Byte) : (c.emit source code data).time = c.time := rfl
@[simp] theorem Core.emit_los (c : Core) (source code : Nat) (data : List Byte) : (c.emit source code data).los = c.los := rfl
@[simp] theorem Core.emit_rfins (c : Core) (source code : Nat) (data : List Byte) : (c.emit source code data).rfins = c.rfins := rfl
@[simp] theorem Core.emit_paths (c : Core) (source code : Nat) (data : List Byte) : (c.emit source code data).paths = c.paths := rfl
@[simp] theorem Core.emit_sinks (c : Core) (source code : Nat) (data : List Byte) : (c.emit source code data).sinks = c.sinks := rfl
@[simp] theorem Core.emit_captures (c : Core) (source code : Nat) (data : List Byte) : (c.emit source code data).captures = c.captures := rfl
@[simp] theorem Core.emit_guard (c : Core) (source code : Nat) (data : List Byte) : (c.emit source code data).guard = c.guard := rfl
@[simp] theorem Core.emit_inbound (c : Core) (source code : Nat) (data : List Byte) : (c.emit source code data).inbound = c.inbound := rfl
@[simp] theorem Core.emit_calibrateBy (c : Core) (source code : Nat) (data : List Byte) : (c.emit source code data).calibrateBy = c.calibrateBy := rfl
@[simp] theorem Core.emit_powerDownBy (c : Core) (source code : Nat) (data : List Byte) : (c.emit source code data).powerDownBy = c.powerDownBy := rfl
@[simp] theorem Core.emit_fe (c : Core) (source code : Nat) (data : List Byte) : (c.emit source code data).fe = c.fe := rfl
@[simp] theorem Core.emit_box (c : Core) (source code : Nat) (data : List Byte) : (c.emit source code data).box = c.box := rfl
@[simp] theorem Core.emit_axes (c : Core) (source code : Nat) (data : List Byte) : (c.emit source code data).axes = c.axes := rfl
@[simp] theorem Core.emit_twin (c : Core) (source code : Nat) (data : List Byte) : (c.emit source code data).twin = c.twin := rfl
@[simp] theorem Core.emit_line (c : Core) (source code : Nat) (data : List Byte) : (c.emit source code data).line = c.line := rfl
@[simp] theorem Core.emit_ident (c : Core) (source code : Nat) (data : List Byte) : (c.emit source code data).ident = c.ident := rfl
@[simp] theorem Core.emit_therm (c : Core) (source code : Nat) (data : List Byte) : (c.emit source code data).therm = c.therm := rfl
@[simp] theorem Core.emit_supply (c : Core) (source code : Nat) (data : List Byte) : (c.emit source code data).supply = c.supply := rfl
@[simp] theorem Core.emit_hk (c : Core) (source code : Nat) (data : List Byte) : (c.emit source code data).hk = c.hk := rfl
@[simp] theorem Core.emit_tw (c : Core) (source code : Nat) (data : List Byte) : (c.emit source code data).tw = c.tw := rfl

@[simp] theorem Core.persistUnit_phase (c : Core) (u : List (Nat × Nat)) : (c.persistUnit u).phase = c.phase := rfl
@[simp] theorem Core.persistUnit_now (c : Core) (u : List (Nat × Nat)) : (c.persistUnit u).now = c.now := rfl
@[simp] theorem Core.persistUnit_clock (c : Core) (u : List (Nat × Nat)) : (c.persistUnit u).clock = c.clock := rfl
@[simp] theorem Core.persistUnit_ticking (c : Core) (u : List (Nat × Nat)) : (c.persistUnit u).ticking = c.ticking := rfl
@[simp] theorem Core.persistUnit_since (c : Core) (u : List (Nat × Nat)) : (c.persistUnit u).since = c.since := rfl
@[simp] theorem Core.persistUnit_resetLow (c : Core) (u : List (Nat × Nat)) : (c.persistUnit u).resetLow = c.resetLow := rfl
@[simp] theorem Core.persistUnit_free (c : Core) (u : List (Nat × Nat)) : (c.persistUnit u).free = c.free := rfl
@[simp] theorem Core.persistUnit_dict (c : Core) (u : List (Nat × Nat)) : (c.persistUnit u).dict = c.dict := rfl
@[simp] theorem Core.persistUnit_sticky (c : Core) (u : List (Nat × Nat)) : (c.persistUnit u).sticky = c.sticky := rfl
@[simp] theorem Core.persistUnit_presented (c : Core) (u : List (Nat × Nat)) : (c.persistUnit u).presented = c.presented := rfl
@[simp] theorem Core.persistUnit_seconds (c : Core) (u : List (Nat × Nat)) : (c.persistUnit u).seconds = c.seconds := rfl
@[simp] theorem Core.persistUnit_cal (c : Core) (u : List (Nat × Nat)) : (c.persistUnit u).cal = c.cal := rfl
@[simp] theorem Core.persistUnit_latched (c : Core) (u : List (Nat × Nat)) : (c.persistUnit u).latched = c.latched := rfl
@[simp] theorem Core.persistUnit_pend (c : Core) (u : List (Nat × Nat)) : (c.persistUnit u).pend = c.pend := rfl
@[simp] theorem Core.persistUnit_ownerSeen (c : Core) (u : List (Nat × Nat)) : (c.persistUnit u).ownerSeen = c.ownerSeen := rfl
@[simp] theorem Core.persistUnit_sched (c : Core) (u : List (Nat × Nat)) : (c.persistUnit u).sched = c.sched := rfl
@[simp] theorem Core.persistUnit_heldLocal (c : Core) (u : List (Nat × Nat)) : (c.persistUnit u).heldLocal = c.heldLocal := rfl
@[simp] theorem Core.persistUnit_later (c : Core) (u : List (Nat × Nat)) : (c.persistUnit u).later = c.later := rfl
@[simp] theorem Core.persistUnit_time (c : Core) (u : List (Nat × Nat)) : (c.persistUnit u).time = c.time := rfl
@[simp] theorem Core.persistUnit_los (c : Core) (u : List (Nat × Nat)) : (c.persistUnit u).los = c.los := rfl
@[simp] theorem Core.persistUnit_rfins (c : Core) (u : List (Nat × Nat)) : (c.persistUnit u).rfins = c.rfins := rfl
@[simp] theorem Core.persistUnit_paths (c : Core) (u : List (Nat × Nat)) : (c.persistUnit u).paths = c.paths := rfl
@[simp] theorem Core.persistUnit_sinks (c : Core) (u : List (Nat × Nat)) : (c.persistUnit u).sinks = c.sinks := rfl
@[simp] theorem Core.persistUnit_captures (c : Core) (u : List (Nat × Nat)) : (c.persistUnit u).captures = c.captures := rfl
@[simp] theorem Core.persistUnit_guard (c : Core) (u : List (Nat × Nat)) : (c.persistUnit u).guard = c.guard := rfl
@[simp] theorem Core.persistUnit_inbound (c : Core) (u : List (Nat × Nat)) : (c.persistUnit u).inbound = c.inbound := rfl
@[simp] theorem Core.persistUnit_calibrateBy (c : Core) (u : List (Nat × Nat)) : (c.persistUnit u).calibrateBy = c.calibrateBy := rfl
@[simp] theorem Core.persistUnit_powerDownBy (c : Core) (u : List (Nat × Nat)) : (c.persistUnit u).powerDownBy = c.powerDownBy := rfl
@[simp] theorem Core.persistUnit_fe (c : Core) (u : List (Nat × Nat)) : (c.persistUnit u).fe = c.fe := rfl
@[simp] theorem Core.persistUnit_box (c : Core) (u : List (Nat × Nat)) : (c.persistUnit u).box = c.box := rfl
@[simp] theorem Core.persistUnit_axes (c : Core) (u : List (Nat × Nat)) : (c.persistUnit u).axes = c.axes := rfl
@[simp] theorem Core.persistUnit_twin (c : Core) (u : List (Nat × Nat)) : (c.persistUnit u).twin = c.twin := rfl
@[simp] theorem Core.persistUnit_line (c : Core) (u : List (Nat × Nat)) : (c.persistUnit u).line = c.line := rfl
@[simp] theorem Core.persistUnit_ident (c : Core) (u : List (Nat × Nat)) : (c.persistUnit u).ident = c.ident := rfl
@[simp] theorem Core.persistUnit_therm (c : Core) (u : List (Nat × Nat)) : (c.persistUnit u).therm = c.therm := rfl
@[simp] theorem Core.persistUnit_supply (c : Core) (u : List (Nat × Nat)) : (c.persistUnit u).supply = c.supply := rfl
@[simp] theorem Core.persistUnit_hk (c : Core) (u : List (Nat × Nat)) : (c.persistUnit u).hk = c.hk := rfl
@[simp] theorem Core.persistUnit_tw (c : Core) (u : List (Nat × Nat)) : (c.persistUnit u).tw = c.tw := rfl

@[simp] theorem Core.setPath_phase (c : Core) (p : Nat) (x : PathSt) : (c.setPath p x).phase = c.phase := rfl
@[simp] theorem Core.setPath_now (c : Core) (p : Nat) (x : PathSt) : (c.setPath p x).now = c.now := rfl
@[simp] theorem Core.setPath_clock (c : Core) (p : Nat) (x : PathSt) : (c.setPath p x).clock = c.clock := rfl
@[simp] theorem Core.setPath_ticking (c : Core) (p : Nat) (x : PathSt) : (c.setPath p x).ticking = c.ticking := rfl
@[simp] theorem Core.setPath_since (c : Core) (p : Nat) (x : PathSt) : (c.setPath p x).since = c.since := rfl
@[simp] theorem Core.setPath_resetLow (c : Core) (p : Nat) (x : PathSt) : (c.setPath p x).resetLow = c.resetLow := rfl
@[simp] theorem Core.setPath_free (c : Core) (p : Nat) (x : PathSt) : (c.setPath p x).free = c.free := rfl
@[simp] theorem Core.setPath_dict (c : Core) (p : Nat) (x : PathSt) : (c.setPath p x).dict = c.dict := rfl
@[simp] theorem Core.setPath_sticky (c : Core) (p : Nat) (x : PathSt) : (c.setPath p x).sticky = c.sticky := rfl
@[simp] theorem Core.setPath_presented (c : Core) (p : Nat) (x : PathSt) : (c.setPath p x).presented = c.presented := rfl
@[simp] theorem Core.setPath_seconds (c : Core) (p : Nat) (x : PathSt) : (c.setPath p x).seconds = c.seconds := rfl
@[simp] theorem Core.setPath_persist (c : Core) (p : Nat) (x : PathSt) : (c.setPath p x).persist = c.persist := rfl
@[simp] theorem Core.setPath_cal (c : Core) (p : Nat) (x : PathSt) : (c.setPath p x).cal = c.cal := rfl
@[simp] theorem Core.setPath_latched (c : Core) (p : Nat) (x : PathSt) : (c.setPath p x).latched = c.latched := rfl
@[simp] theorem Core.setPath_pend (c : Core) (p : Nat) (x : PathSt) : (c.setPath p x).pend = c.pend := rfl
@[simp] theorem Core.setPath_ownerSeen (c : Core) (p : Nat) (x : PathSt) : (c.setPath p x).ownerSeen = c.ownerSeen := rfl
@[simp] theorem Core.setPath_sched (c : Core) (p : Nat) (x : PathSt) : (c.setPath p x).sched = c.sched := rfl
@[simp] theorem Core.setPath_heldLocal (c : Core) (p : Nat) (x : PathSt) : (c.setPath p x).heldLocal = c.heldLocal := rfl
@[simp] theorem Core.setPath_later (c : Core) (p : Nat) (x : PathSt) : (c.setPath p x).later = c.later := rfl
@[simp] theorem Core.setPath_time (c : Core) (p : Nat) (x : PathSt) : (c.setPath p x).time = c.time := rfl
@[simp] theorem Core.setPath_los (c : Core) (p : Nat) (x : PathSt) : (c.setPath p x).los = c.los := rfl
@[simp] theorem Core.setPath_rfins (c : Core) (p : Nat) (x : PathSt) : (c.setPath p x).rfins = c.rfins := rfl
@[simp] theorem Core.setPath_sinks (c : Core) (p : Nat) (x : PathSt) : (c.setPath p x).sinks = c.sinks := rfl
@[simp] theorem Core.setPath_captures (c : Core) (p : Nat) (x : PathSt) : (c.setPath p x).captures = c.captures := rfl
@[simp] theorem Core.setPath_guard (c : Core) (p : Nat) (x : PathSt) : (c.setPath p x).guard = c.guard := rfl
@[simp] theorem Core.setPath_inbound (c : Core) (p : Nat) (x : PathSt) : (c.setPath p x).inbound = c.inbound := rfl
@[simp] theorem Core.setPath_calibrateBy (c : Core) (p : Nat) (x : PathSt) : (c.setPath p x).calibrateBy = c.calibrateBy := rfl
@[simp] theorem Core.setPath_powerDownBy (c : Core) (p : Nat) (x : PathSt) : (c.setPath p x).powerDownBy = c.powerDownBy := rfl
@[simp] theorem Core.setPath_fe (c : Core) (p : Nat) (x : PathSt) : (c.setPath p x).fe = c.fe := rfl
@[simp] theorem Core.setPath_box (c : Core) (p : Nat) (x : PathSt) : (c.setPath p x).box = c.box := rfl
@[simp] theorem Core.setPath_axes (c : Core) (p : Nat) (x : PathSt) : (c.setPath p x).axes = c.axes := rfl
@[simp] theorem Core.setPath_twin (c : Core) (p : Nat) (x : PathSt) : (c.setPath p x).twin = c.twin := rfl
@[simp] theorem Core.setPath_line (c : Core) (p : Nat) (x : PathSt) : (c.setPath p x).line = c.line := rfl
@[simp] theorem Core.setPath_ident (c : Core) (p : Nat) (x : PathSt) : (c.setPath p x).ident = c.ident := rfl
@[simp] theorem Core.setPath_therm (c : Core) (p : Nat) (x : PathSt) : (c.setPath p x).therm = c.therm := rfl
@[simp] theorem Core.setPath_supply (c : Core) (p : Nat) (x : PathSt) : (c.setPath p x).supply = c.supply := rfl
@[simp] theorem Core.setPath_hk (c : Core) (p : Nat) (x : PathSt) : (c.setPath p x).hk = c.hk := rfl
@[simp] theorem Core.setPath_tw (c : Core) (p : Nat) (x : PathSt) : (c.setPath p x).tw = c.tw := rfl

@[simp] theorem Core.emit_presented (c : Core) (source code : Nat) (data : List Byte) :
    (c.emit source code data).presented =
      c.presented ++ [⟨source, code, padTo 12 data, c.clock, c.timeUncommon, false⟩] := rfl
@[simp] theorem Core.persistUnit_persist (c : Core) (u : List (Nat × Nat)) : (c.persistUnit u).persist = c.persist ++ [u] := rfl
@[simp] theorem Core.emit_ent (c : Core) (source code : Nat) (data : List Byte) (i sub : Nat) :
    (c.emit source code data).ent i sub = c.ent i sub := rfl
@[simp] theorem Core.persistUnit_ent (c : Core) (u : List (Nat × Nat)) (i sub : Nat) :
    (c.persistUnit u).ent i sub = c.ent i sub := rfl
@[simp] theorem Core.setPath_ent (c : Core) (p : Nat) (x : PathSt) (i sub : Nat) :
    (c.setPath p x).ent i sub = c.ent i sub := rfl

@[simp] theorem State.onCore_core (s : State) (f : Core → Core) : (s.onCore f).core = f s.core := rfl
@[simp] theorem State.onCore_book (s : State) (f : Core → Core) : (s.onCore f).book = s.book := rfl
@[simp] theorem State.onCore_nv (s : State) (f : Core → Core) : (s.onCore f).nv = s.nv := rfl
@[simp] theorem State.onCore_link (s : State) (f : Core → Core) : (s.onCore f).link = s.link := rfl
@[simp] theorem State.onCore_jtag (s : State) (f : Core → Core) : (s.onCore f).jtag = s.jtag := rfl
@[simp] theorem State.onCore_pending (s : State) (f : Core → Core) : (s.onCore f).pending = s.pending := rfl

@[simp] theorem State.taken_core (s : State) (o : Origin) : (s.taken o).core = s.core.touchOwner o := rfl
@[simp] theorem State.taken_book (s : State) (o : Origin) : (s.taken o).book = s.book := rfl
@[simp] theorem State.taken_nv (s : State) (o : Origin) : (s.taken o).nv = s.nv := rfl
@[simp] theorem State.taken_jtag (s : State) (o : Origin) : (s.taken o).jtag = s.jtag := rfl
@[simp] theorem State.taken_pending (s : State) (o : Origin) : (s.taken o).pending = s.pending := rfl

end Sys2Proof.Machine
end

