-- ==== Sys2Proof/Laws/Tab.lean ====
section
/-! SUPPORT. Laws of sparse tables: reading after writing, and that every operation keeps the canonical form. -/

set_option Elab.async false

namespace Sys2Proof.Machine

variable {α : Type}

@[simp] theorem Tab.find?_nil (k : Nat) : Tab.find? ([] : Tab α) k = none := rfl

theorem Tab.find?_insert_self (t : Tab α) (k : Nat) (v : α) : (t.insert k v).find? k = some v := by
  induction t with
  | nil => simp [Tab.insert, Tab.find?]
  | cons e r ih =>
    obtain ⟨j, u⟩ := e
    simp only [Tab.insert]
    split
    · simp [Tab.find?]
    · split
      · simp [Tab.find?]
      · rename_i h
        simp only [Tab.find?]
        rw [if_neg (fun e => h e.symm), ih]

theorem Tab.find?_insert_of_ne (t : Tab α) {k j : Nat} (v : α) (h : j ≠ k) : (t.insert k v).find? j = t.find? j := by
  induction t with
  | nil => simp [Tab.insert, Tab.find?, Ne.symm h]
  | cons e r ih =>
    obtain ⟨i, u⟩ := e
    simp only [Tab.insert]
    split
    · simp [Tab.find?, Ne.symm h]
    · split
      · rename_i _ e
        subst e
        simp [Tab.find?, Ne.symm h]
      · simp only [Tab.find?, ih]

theorem Tab.find?_drop_of_ne (t : Tab α) {k j : Nat} (h : j ≠ k) : (t.drop k).find? j = t.find? j := by
  induction t with
  | nil => rfl
  | cons e r ih =>
    obtain ⟨i, u⟩ := e
    simp only [Tab.drop]
    split
    · rename_i e
      subst e
      rw [ih]
      simp [Tab.find?, Ne.symm h]
    · simp only [Tab.find?, ih]

theorem Tab.get_put_of_ne [DecidableEq α] (dflt : Nat → α) (t : Tab α) {k j : Nat} (v : α) (h : j ≠ k) :
    (t.put dflt k v).get dflt j = t.get dflt j := by
  simp only [Tab.put, Tab.get]
  split
  · rw [Tab.find?_drop_of_ne t h]
  · rw [Tab.find?_insert_of_ne t v h]

@[simp] theorem Tab.find?_drop_self (t : Tab α) (k : Nat) : (t.drop k).find? k = none := by
  induction t with
  | nil => rfl
  | cons e r ih =>
    obtain ⟨j, u⟩ := e
    simp only [Tab.drop]
    split
    · exact ih
    · rename_i h
      simp only [Tab.find?, if_neg h, ih]

/-- Reading back what was written. -/
@[simp] theorem Tab.get_put_self [DecidableEq α] (dflt : Nat → α) (t : Tab α) (k : Nat) (v : α) :
    (t.put dflt k v).get dflt k = v := by
  simp only [Tab.put, Tab.get]
  split
  · rename_i e
    rw [Tab.find?_drop_self, e]; rfl
  · rw [Tab.find?_insert_self]; rfl

/-- A read after a write: the value written at its key, and every other value as it was. -/
theorem Tab.get_put [DecidableEq α] (dflt : Nat → α) (t : Tab α) (k j : Nat) (v : α) :
    (t.put dflt k v).get dflt j = if j = k then v else t.get dflt j := by
  split
  · rename_i h
    rw [h, Tab.get_put_self]
  · rename_i h
    exact Tab.get_put_of_ne dflt t v h

theorem Tab.mem_insert {t : Tab α} {k : Nat} {v : α} {e : Nat × α} (h : e ∈ t.insert k v) : e = (k, v) ∨ e ∈ t := by
  induction t with
  | nil => simpa [Tab.insert] using h
  | cons f r ih =>
    obtain ⟨j, u⟩ := f
    simp only [Tab.insert] at h
    split at h
    · simpa using h
    · split at h
      · simp only [List.mem_cons] at h
        exact h.imp id (fun h => by simp [h])
      · simp only [List.mem_cons] at h ⊢
        rcases h with h | h
        · exact .inr (.inl h)
        · exact (ih h).imp id .inr

theorem Tab.mem_drop {t : Tab α} {k : Nat} {e : Nat × α} (h : e ∈ t.drop k) : e ∈ t := by
  induction t with
  | nil => simp [Tab.drop] at h
  | cons f r ih =>
    obtain ⟨j, u⟩ := f
    simp only [Tab.drop] at h
    split at h
    · exact .tail _ (ih h)
    · simp only [List.mem_cons] at h ⊢
      exact h.imp id ih

theorem Tab.rising_insert (t : Tab α) (k : Nat) (v : α) (h : (t.map Prod.fst).Pairwise (· < ·)) :
    ((t.insert k v).map Prod.fst).Pairwise (· < ·) := by
  induction t with
  | nil => simp [Tab.insert]
  | cons e r ih =>
    obtain ⟨j, u⟩ := e
    simp only [List.map_cons, List.pairwise_cons] at h
    simp only [Tab.insert]
    split
    · rename_i hk
      simp only [List.map_cons, List.pairwise_cons, List.mem_cons]
      exact ⟨fun a ha => ha.elim (fun e => e ▸ hk) (fun m => Nat.lt_trans hk (h.1 a m)), h.1, h.2⟩
    · split
      · rename_i hk
        subst hk
        exact List.pairwise_cons.2 ⟨h.1, h.2⟩
      · rename_i h1 h2
        simp only [List.map_cons, List.pairwise_cons]
        refine ⟨fun a ha => ?_, ih h.2⟩
        obtain ⟨e, he, rfl⟩ := List.mem_map.1 ha
        rcases Tab.mem_insert he with rfl | m
        · simp only; omega
        · exact h.1 e.1 (List.mem_map_of_mem m)

theorem Tab.rising_drop (t : Tab α) (k : Nat) (h : (t.map Prod.fst).Pairwise (· < ·)) :
    ((t.drop k).map Prod.fst).Pairwise (· < ·) := by
  induction t with
  | nil => simp [Tab.drop]
  | cons e r ih =>
    obtain ⟨j, u⟩ := e
    simp only [List.map_cons, List.pairwise_cons] at h
    simp only [Tab.drop]
    split
    · exact ih h.2
    · simp only [List.map_cons, List.pairwise_cons]
      refine ⟨fun a ha => ?_, ih h.2⟩
      obtain ⟨e, he, rfl⟩ := List.mem_map.1 ha
      exact h.1 e.1 (List.mem_map_of_mem (Tab.mem_drop he))

@[simp] theorem Tab.wf_nil [DecidableEq α] (dflt : Nat → α) : Tab.wf dflt ([] : Tab α) := by simp [Tab.wf]

/-- Writing keeps the canonical form. -/
theorem Tab.wf_put [DecidableEq α] (dflt : Nat → α) (t : Tab α) (k : Nat) (v : α) (h : Tab.wf dflt t) :
    Tab.wf dflt (t.put dflt k v) := by
  simp only [Tab.put]
  split
  · exact ⟨Tab.rising_drop t k h.1, fun e he => h.2 e (Tab.mem_drop he)⟩
  · rename_i hv
    refine ⟨Tab.rising_insert t k v h.1, fun e he => ?_⟩
    rcases Tab.mem_insert he with rfl | m
    · exact hv
    · exact h.2 e m

theorem Tab.wf_mod [DecidableEq α] (dflt : Nat → α) (t : Tab α) (k : Nat) (f : α → α) (h : Tab.wf dflt t) :
    Tab.wf dflt (t.mod dflt k f) := Tab.wf_put dflt t k _ h

theorem Tab.wf_mapAll [DecidableEq α] (dflt : Nat → α) (t : Tab α) (f : α → α) (h : Tab.wf dflt t) :
    Tab.wf dflt (t.mapAll dflt f) := by
  refine ⟨?_, fun e he => ?_⟩
  · have h1 : ((t.map (fun e => (e.1, f e.2))).map Prod.fst).Pairwise (· < ·) := by simpa [Function.comp_def] using h.1
    exact List.Pairwise.sublist (List.Sublist.map _ List.filter_sublist) h1
  · simpa using (List.mem_filter.1 he).2

/-- Writing a batch of entries keeps the canonical form. -/
theorem Tab.wf_foldl_put [DecidableEq α] (dflt : Nat → α) (l : List (Nat × α)) (t : Tab α) (h : Tab.wf dflt t) :
    Tab.wf dflt (l.foldl (fun d e => Tab.put dflt d e.1 e.2) t) := by
  induction l generalizing t with
  | nil => exact h
  | cons e r ih => exact ih _ (Tab.wf_put dflt t e.1 e.2 h)

end Sys2Proof.Machine
end

