-- ==== Sys2Proof/Laws/Ops.lean ====
section
/-! SUPPORT. What the shared operations can do: entries, counters, events, served writes, and the shape of an answer. -/

set_option Elab.async false

namespace Sys2Proof.Machine

theorem entKey_inj {i sub j t : Nat} (h : sub < 256) (h' : t < 256) (e : entKey i sub = entKey j t) : i = j ∧ sub = t := by
  simp only [entKey] at e; omega

/-- A read of an entry after a write of one. -/
@[simp] theorem Core.ent_setEnt (c : Core) (i sub v j t : Nat) :
    (c.setEnt i sub v).ent j t = if entKey j t = entKey i sub then v else c.ent j t :=
  Tab.get_put entryDefault c.dict (entKey i sub) (entKey j t) v

theorem Core.ent_setEnt_of_ne (c : Core) (i sub v : Nat) {j t : Nat} (h : entKey j t ≠ entKey i sub) :
    (c.setEnt i sub v).ent j t = c.ent j t := by rw [Core.ent_setEnt, if_neg h]

/-- A read of this table after a write of one of its elements. -/
@[simp] theorem Core.path_setPath (c : Core) (p q : Nat) (x : PathSt) :
    (c.setPath p x).path q = if q = p then x else c.path q := Tab.get_put _ c.paths p q x

/-- A read of this table after a write of one of its elements. -/
@[simp] theorem Core.sink_setSink (c : Core) (p q : Nat) (x : SinkSt) :
    (c.setSink p x).sink q = if q = p then x else c.sink q := Tab.get_put _ c.sinks p q x

/-- A read of this table after a write of one of its elements. -/
@[simp] theorem Core.rfin_setRfin (c : Core) (p q : Nat) (x : RfinSt) :
    (c.setRfin p x).rfin q = if q = p then x else c.rfin q := Tab.get_put _ c.rfins p q x

/-- A read of this table after a write of one of its elements. -/
@[simp] theorem Core.capture_setCapture (c : Core) (p q : Nat) (x : CaptureSt) :
    (c.setCapture p x).capture q = if q = p then x else c.capture q := Tab.get_put _ c.captures p q x

/-- A read of this table after a write of one of its elements. -/
@[simp] theorem Core.lo_setLo (c : Core) (p q : Nat) (x : LoSt) :
    (c.setLo p x).lo q = if q = p then x else c.lo q := Tab.get_put _ c.los p q x

/-- Counting changes the counter's own entry and, on an overflow, its sticky flag: nothing else (R324). -/
theorem Core.count_ent_of_ne (c : Core) (i sub n : Nat) {j t : Nat} (h : entKey j t ≠ entKey i sub) :
    (c.count i sub n).ent j t = c.ent j t := by
  simp only [Core.count]
  split
  · exact c.ent_setEnt_of_ne i sub _ h
  · split <;> exact c.ent_setEnt_of_ne i sub _ h

@[simp] theorem Core.count_presented (c : Core) (i sub n : Nat) : (c.count i sub n).presented = c.presented := by
  simp only [Core.count]
  split
  · rfl
  · split <;> rfl

@[simp] theorem Core.count_now (c : Core) (i sub n : Nat) : (c.count i sub n).now = c.now := by
  simp only [Core.count]
  split
  · rfl
  · split <;> rfl

@[simp] theorem Core.count_clock (c : Core) (i sub n : Nat) : (c.count i sub n).clock = c.clock := by
  simp only [Core.count]
  split
  · rfl
  · split <;> rfl

theorem Core.count_ent (c : Core) (i sub n : Nat) : (c.count i sub n).ent i sub = min (c.ent i sub + n) (2 ^ 32 - 1) := by
  simp only [Core.count]
  split
  · rw [Core.ent_setEnt, if_pos rfl]; omega
  · split
    · rw [Core.ent_setEnt, if_pos rfl]; omega
    · show (c.setEnt i sub (2 ^ 32 - 1)).ent i sub = _
      rw [Core.ent_setEnt, if_pos rfl]; omega

/-- A moment of the part's own: its effect where it is due, and nothing otherwise. -/
theorem State.event_due (s : State) {due : Core → Bool} {f : Core → Core} (h : due s.core = true) :
    s.event due f = .next (s.onCore f) := by simp [State.event, h]

theorem State.event_idle (s : State) {due : Core → Bool} {f : Core → Core} (h : due s.core = false) :
    s.event due f = .next s := by simp [State.event, h]

/-- A moment of the part's own leaves the book, the non-volatile memory, the transports, the boundary scan and the queue as
they were. -/
theorem State.event_frame (s t : State) {due : Core → Bool} {f : Core → Core} (h : s.event due f = .next t) :
    t.book = s.book ∧ t.nv = s.nv ∧ t.link = s.link ∧ t.jtag = s.jtag ∧ t.pending = s.pending := by
  simp only [State.event] at h
  injection h with h
  split at h <;> (subst h; exact ⟨rfl, rfl, rfl, rfl, rfl⟩)

/-- A response changes what its transport holds and, over HSPI and the Line, the core: nothing else. -/
theorem State.reply_frame (s : State) (o : Origin) (body : List Byte) :
    (s.reply o body).book = s.book ∧ (s.reply o body).nv = s.nv ∧ (s.reply o body).jtag = s.jtag ∧
      (s.reply o body).pending = s.pending := by
  simp only [State.reply]
  split
  · exact ⟨rfl, rfl, rfl, rfl⟩
  · split <;> exact ⟨rfl, rfl, rfl, rfl⟩

theorem State.finish_frame (s : State) (o : Origin) (opcode i sub code flags : Nat) (v : List Byte) :
    (s.finish o opcode i sub code flags v).book = s.book ∧ (s.finish o opcode i sub code flags v).nv = s.nv ∧
      (s.finish o opcode i sub code flags v).jtag = s.jtag ∧ (s.finish o opcode i sub code flags v).pending = s.pending := by
  simp only [State.finish]
  split
  · exact ⟨rfl, rfl, rfl, rfl⟩
  · exact State.reply_frame _ o _

/-- A write that cannot be taken yet leaves everything as it is. -/
theorem State.serveWrite_waits (s : State) (o : Origin) (i sub : Nat) (v : List Byte) (act : Act)
    (h : s.canServe o 0 = false) : s.serveWrite o i sub v act = s := by simp [State.serveWrite, h]

/-- A write that a check of R309 refuses has its response and no other effect. -/
theorem State.serveWrite_refused (s : State) (o : Origin) (i sub : Nat) (v : List Byte) (act : Act)
    (h : s.canServe o 0 = true) (hc : (s.core.touchOwner o).writeCheck o i sub v ≠ 0) :
    s.serveWrite o i sub v act = (s.taken o).finish o 2 i sub ((s.core.touchOwner o).writeCheck o i sub v) 0 [] := by
  simp only [State.serveWrite, h, State.serveTaken, State.taken_core]
  simp [hc]

/-- A write that passes R309 steps 1 to 10 has its effect and its response. -/
theorem State.serveWrite_served (s : State) (o : Origin) (i sub : Nat) (v : List Byte) (act : Act)
    (h : s.canServe o 0 = true) (hc : (s.core.touchOwner o).writeCheck o i sub v = 0) :
    s.serveWrite o i sub v act =
      (act (s.taken o)).2.2.finish o 2 i sub (act (s.taken o)).1 (act (s.taken o)).2.1 [] := by
  simp only [State.serveWrite, h, State.serveTaken, State.taken_core]
  simp [hc]

/-- A write whose action keeps to the core leaves the book, the non-volatile memory, the boundary scan and the queue as they
were. -/
theorem State.serveWrite_core_frame (s : State) (o : Origin) (i sub : Nat) (v : List Byte) (f : Core → Nat × Core) :
    (s.serveWrite o i sub v (coreAct f)).book = s.book ∧ (s.serveWrite o i sub v (coreAct f)).nv = s.nv ∧
      (s.serveWrite o i sub v (coreAct f)).jtag = s.jtag ∧ (s.serveWrite o i sub v (coreAct f)).pending = s.pending := by
  by_cases h : s.canServe o 0 = true
  · by_cases hc : (s.core.touchOwner o).writeCheck o i sub v = 0
    · rw [State.serveWrite_served s o i sub v _ h hc]
      exact State.finish_frame _ o 2 i sub _ _ []
    · rw [State.serveWrite_refused s o i sub v _ h hc]
      exact State.finish_frame _ o 2 i sub _ 0 []
  · rw [State.serveWrite_waits s o i sub v _ (by simpa using h)]
    exact ⟨rfl, rfl, rfl, rfl⟩

end Sys2Proof.Machine
end

