-- ==== Sys2Proof/Laws/Frames.lean ====
section
/-! SUPPORT. What the shared operations leave alone: each changes entries of a footprint only, adds events and removes
none, and moves neither time nor phase. -/

set_option Elab.async false

namespace Sys2Proof.Machine

/-- `d` follows from `c` by changes to entries whose keys lie in `F`, and by further events: time, the phase and the configuration pending or scheduled, and every other entry stay. -/
structure Core.Keeps (F : Nat → Prop) (c d : Core) : Prop where
  dict : ∀ k, ¬ F k → d.dict.get entryDefault k = c.dict.get entryDefault k
  shown : c.presented <+: d.presented
  now : d.now = c.now
  clock : d.clock = c.clock
  phase : d.phase = c.phase
  ticking : d.ticking = c.ticking
  sched : d.sched = c.sched
  pend : d.pend = c.pend

namespace Keeps
variable {F G : Nat → Prop} {c d e : Core}

theorem refl : Core.Keeps F c c := ⟨fun _ _ => rfl, List.prefix_refl _, rfl, rfl, rfl, rfl, rfl, rfl⟩

theorem trans (h : Core.Keeps F c d) (h' : Core.Keeps F d e) : Core.Keeps F c e :=
  ⟨fun k hk => (h'.dict k hk).trans (h.dict k hk), h.shown.trans h'.shown, h'.now.trans h.now, h'.clock.trans h.clock,
    h'.phase.trans h.phase, h'.ticking.trans h.ticking,
    h'.sched.trans h.sched, h'.pend.trans h.pend⟩

theorem mono (h : Core.Keeps F c d) (hf : ∀ k, F k → G k) : Core.Keeps G c d :=
  ⟨fun k hk => h.dict k (fun x => hk (hf k x)), h.shown, h.now, h.clock, h.phase, h.ticking, h.sched, h.pend⟩

theorem ent (h : Core.Keeps F c d) (i sub : Nat) (hk : ¬ F (entKey i sub)) : d.ent i sub = c.ent i sub := h.dict _ hk

/-- A change of other fields. -/
theorem upd (h : Core.Keeps F c d) (e1 : e.dict = d.dict) (e2 : e.presented = d.presented) (e3 : e.now = d.now)
    (e4 : e.clock = d.clock) (e5 : e.phase = d.phase) (e6 : e.ticking = d.ticking) (e7 : e.sched = d.sched)
    (e8 : e.pend = d.pend) : Core.Keeps F c e :=
  ⟨fun k hk => by rw [e1]; exact h.dict k hk, by rw [e2]; exact h.shown, by rw [e3]; exact h.now,
    by rw [e4]; exact h.clock, by rw [e5]; exact h.phase, by rw [e6]; exact h.ticking,
    by rw [e7]; exact h.sched, by rw [e8]; exact h.pend⟩

/-- A further event. -/
theorem more (h : Core.Keeps F c d) (l : List Event) (e1 : e.dict = d.dict) (e2 : e.presented = d.presented ++ l)
    (e3 : e.now = d.now) (e4 : e.clock = d.clock) (e5 : e.phase = d.phase) (e6 : e.ticking = d.ticking)
    (e7 : e.sched = d.sched) (e8 : e.pend = d.pend) : Core.Keeps F c e :=
  ⟨fun k hk => by rw [e1]; exact h.dict k hk, by rw [e2]; exact h.shown.trans (List.prefix_append _ _),
    by rw [e3]; exact h.now, by rw [e4]; exact h.clock, by rw [e5]; exact h.phase, by rw [e6]; exact h.ticking,
    by rw [e7]; exact h.sched, by rw [e8]; exact h.pend⟩

theorem setEnt (h : Core.Keeps F c d) {i sub v : Nat} (hk : F (entKey i sub)) : Core.Keeps F c (d.setEnt i sub v) :=
  ⟨fun k hf => by
      rw [← h.dict k hf]
      exact Tab.get_put_of_ne entryDefault d.dict v (fun e => hf (by rw [e]; exact hk)),
    h.shown, h.now, h.clock, h.phase, h.ticking, h.sched, h.pend⟩

theorem setPe (h : Core.Keeps F c d) {p off sub v : Nat} (hk : F (entKey (pIdx p off) sub)) :
    Core.Keeps F c (d.setPe p off sub v) := setEnt h hk
theorem setS (h : Core.Keeps F c d) {w i sub : Nat} {v : Int} (hk : F (entKey i sub)) :
    Core.Keeps F c (d.setS w i sub v) := setEnt h hk
theorem setEntBit (h : Core.Keeps F c d) {i sub k : Nat} {b : Bool} (hk : F (entKey i sub)) :
    Core.Keeps F c (d.setEntBit i sub k b) := setEnt h hk
theorem setCdb (h : Core.Keeps F c d) {i sub : Nat} {v : Option Int} (hk : F (entKey i sub)) :
    Core.Keeps F c (d.setCdb i sub v) := by cases v <;> exact setEnt h hk
theorem wrapAdd (h : Core.Keeps F c d) {w i sub n : Nat} (hk : F (entKey i sub)) :
    Core.Keeps F c (d.wrapAdd w i sub n) := setEnt h hk
theorem irq (h : Core.Keeps F c d) {k : Nat} (hk : F (entKey 0x1134 0)) : Core.Keeps F c (d.irq k) := setEnt h hk

theorem count (h : Core.Keeps F c d) {i sub n : Nat} (hk : F (entKey i sub)) : Core.Keeps F c (d.count i sub n) := by
  simp only [Core.count]
  split
  · exact setEnt h hk
  · split
    · exact setEnt h hk
    · exact upd (setEnt (v := 2 ^ 32 - 1) h hk) rfl rfl rfl rfl rfl rfl rfl rfl

theorem emit (h : Core.Keeps F c d) {s x : Nat} {l : List Byte} : Core.Keeps F c (d.emit s x l) :=
  more h _ rfl rfl rfl rfl rfl rfl rfl rfl
theorem emitLatching (h : Core.Keeps F c d) {s x : Nat} {l : List Byte} : Core.Keeps F c (d.emitLatching s x l) :=
  more h _ rfl rfl rfl rfl rfl rfl rfl rfl
theorem countPromise (h : Core.Keeps F c d) {n : Nat} (hk : F (entKey 0x3180 n)) : Core.Keeps F c (d.countPromise n) :=
  count h hk
theorem yieldPromise (h : Core.Keeps F c d) {a b n x : Nat} (hk : F (entKey 0x3180 n)) :
    Core.Keeps F c (d.yieldPromise a b n x) := emit (count h hk)
theorem persistUnit (h : Core.Keeps F c d) {l : List (Nat × Nat)} : Core.Keeps F c (d.persistUnit l) :=
  upd h rfl rfl rfl rfl rfl rfl rfl rfl
theorem setPersistent (h : Core.Keeps F c d) {i sub v : Nat} (hk : F (entKey i sub)) :
    Core.Keeps F c (d.setPersistent i sub v) := persistUnit (setEnt h hk)
theorem draw (h : Core.Keeps F c d) : Core.Keeps F c d.draw.2 := upd h rfl rfl rfl rfl rfl rfl rfl rfl
theorem drawIn (h : Core.Keeps F c d) {a b : Int} : Core.Keeps F c (d.drawIn a b).2 := upd h rfl rfl rfl rfl rfl rfl rfl rfl
theorem setPath (h : Core.Keeps F c d) {p : Nat} {s : PathSt} : Core.Keeps F c (d.setPath p s) :=
  upd h rfl rfl rfl rfl rfl rfl rfl rfl
theorem modPath (h : Core.Keeps F c d) {p : Nat} {f : PathSt → PathSt} : Core.Keeps F c (d.modPath p f) := setPath h
theorem modCanc (h : Core.Keeps F c d) {p : Nat} {f : Canceller → Canceller} : Core.Keeps F c (d.modCanc p f) := setPath h
theorem modGuardPath (h : Core.Keeps F c d) {p : Nat} {f : GuardPath → GuardPath} :
    Core.Keeps F c (d.modGuardPath p f) := setPath h
theorem setSink (h : Core.Keeps F c d) {p : Nat} {s : SinkSt} : Core.Keeps F c (d.setSink p s) :=
  upd h rfl rfl rfl rfl rfl rfl rfl rfl
theorem setFade (h : Core.Keeps F c d) {p o : Nat} {f : Option Fade} : Core.Keeps F c (d.setFade p o f) :=
  upd h rfl rfl rfl rfl rfl rfl rfl rfl
theorem setRfin (h : Core.Keeps F c d) {p : Nat} {s : RfinSt} : Core.Keeps F c (d.setRfin p s) :=
  upd h rfl rfl rfl rfl rfl rfl rfl rfl
theorem setCapture (h : Core.Keeps F c d) {p : Nat} {s : CaptureSt} : Core.Keeps F c (d.setCapture p s) :=
  upd h rfl rfl rfl rfl rfl rfl rfl rfl
theorem setLo (h : Core.Keeps F c d) {p : Nat} {s : LoSt} : Core.Keeps F c (d.setLo p s) :=
  upd h rfl rfl rfl rfl rfl rfl rfl rfl

theorem foldl {α : Type} {f : Core → α → Core} (l : List α) (h : Core.Keeps F c d)
    (hf : ∀ x e, x ∈ l → Core.Keeps F e (f e x)) : Core.Keeps F c (l.foldl f d) := by
  induction l generalizing d with
  | nil => exact h
  | cons x r ih =>
    exact ih (trans h (hf x d List.mem_cons_self)) (fun y e hy => hf y e (List.mem_cons_of_mem _ hy))

theorem each (h : Core.Keeps F c d) {l : List Nat} {f : Core → Nat → Core}
    (hf : ∀ x e, x ∈ l → Core.Keeps F e (f e x)) : Core.Keeps F c (d.each l f) := foldl l h hf

theorem ite {q : Prop} [Decidable q] (h : q → Core.Keeps F c d) (h' : ¬ q → Core.Keeps F c e) :
    Core.Keeps F c (if q then d else e) := by
  split
  · exact h ‹_›
  · exact h' ‹_›

end Keeps

theorem onPaths_key (l : List Nat) {p off sub : Nat} (hp : p < 32) (ho : off < 64) (hs : sub < 256)
    (h : off * 256 + sub ∈ l) : onPaths l (entKey (pIdx p off) sub) := by
  refine ⟨?_, ?_, ?_⟩
  · simp only [entKey, pIdx]; omega
  · simp only [entKey, pIdx]; omega
  · have e : entKey (pIdx p off) sub % 0x4000 = off * 256 + sub := by simp only [entKey, pIdx]; omega
    rw [e]; exact h

theorem onPaths_mono {l m : List Nat} {k : Nat} (h : onPaths l k) (hs : ∀ x, x ∈ l → x ∈ m) : onPaths m k :=
  ⟨h.1, h.2.1, hs _ h.2.2⟩

namespace Keeps
variable {F : Nat → Prop} {c d e : Core}

theorem refreshAdapt (h : Core.Keeps F c d) {p : Nat} (hk : F (entKey (pIdx p 0x19) 7)) :
    Core.Keeps F c (d.refreshAdapt p) := setPe h hk

theorem markFreeze (h : Core.Keeps F c d) {p : Nat} (hk : F (entKey (pIdx p 0x1A) 10)) :
    Core.Keeps F c (d.markFreeze p) := by
  unfold Core.markFreeze
  extract_lets f k c1
  have h1 : Core.Keeps F c c1 := setEntBit h hk
  exact ite (fun _ => h) (fun _ => ite (fun _ => modCanc h1) (fun _ => modCanc h1))

theorem endSweep (h : Core.Keeps F c d) {p r : Nat} (hF : ∀ k, footSweep p k → F k) :
    Core.Keeps F c (d.endSweep p r) := by
  unfold Core.endSweep
  split
  · exact h
  · exact refreshAdapt (emit (setPe (modCanc h) (hF _ (.inl rfl)))) (hF _ (.inr rfl))

theorem hardMute (h : Core.Keeps F c d) {p r : Nat} (hF : ∀ k, footPath p k → F k) :
    Core.Keeps F c (d.hardMute p r) := by
  unfold Core.hardMute
  extract_lets st c1 c2 c3
  have h2 : Core.Keeps F c c2 :=
    modPath (setEntBit (setPe h (hF _ (by simp [footPath]))) (hF _ (by simp [footPath])))
  have h3 : Core.Keeps F c c3 := ite (fun _ => modCanc h2) (fun _ => h2)
  exact ite (fun _ => emit h3) (fun _ => h3)

theorem rampDown (h : Core.Keeps F c d) {p r : Nat} (hF : ∀ k, footPath p k → F k) :
    Core.Keeps F c (d.rampDown p r) := by
  unfold Core.rampDown
  extract_lets s k c1 c2
  have h2 : Core.Keeps F c c2 := modPath (emit (setEntBit h (hF _ (by simp [footPath]))))
  exact ite (fun _ => modPath (setPe h2 (hF _ (by simp [footPath])))) (fun _ => modPath (setPe h2 (hF _ (by simp [footPath]))))

theorem refreshPath (h : Core.Keeps F c d) {p : Nat} (hF : ∀ k, footPath p k → F k) :
    Core.Keeps F c (d.refreshPath p) := by
  have f1 : F (entKey (pIdx p 1) 1) := hF _ (by simp [footPath])
  unfold Core.refreshPath
  extract_lets r st c0 c1 c2 rest c3 c4
  have h0 : Core.Keeps F c c0 := ite (fun _ => modPath h) (fun _ => h)
  have h1 : Core.Keeps F c c1 := setPe h0 (hF _ (by simp [footPath]))
  have h2 : Core.Keeps F c c2 := by
    refine ite (fun _ => ite (fun _ => h1) (fun _ => setPe (ite (fun _ => hardMute h1 hF) (fun _ => h1)) f1)) (fun _ => ?_)
    refine ite (fun _ => ite (fun _ => setPe h1 f1) (fun _ => h1)) (fun _ => ?_)
    refine ite (fun _ => ite (fun _ => hardMute h1 hF) (fun _ => ite (fun _ => h1) (fun _ => rampDown h1 hF))) (fun _ => ?_)
    refine ite (fun _ => hardMute h1 hF) (fun _ => ?_)
    exact ite (fun _ => setPe h1 f1) (fun _ => h1)
  have h3 : Core.Keeps F c c3 := ite (fun _ => modPath h2) (fun _ => h2)
  have h4 : Core.Keeps F c c4 := ite (fun _ => setPe h3 (hF _ (by simp [footPath]))) (fun _ => h3)
  exact refreshAdapt h4 (hF _ (by simp [footPath]))

theorem refreshPaths (h : Core.Keeps F c d) (hF : ∀ p k, p < 32 → footPath p k → F k) :
    Core.Keeps F c d.refreshPaths :=
  each h (fun p _ hp => refreshPath refl (fun k hk => hF p k (by simpa [allPaths] using hp) hk))

theorem refreshLevel (h : Core.Keeps F c d) {p : Nat} (hk : F (entKey (pIdx p 2) 2)) :
    Core.Keeps F c (d.refreshLevel p) := by
  unfold Core.refreshLevel
  exact ite (fun _ => h) (fun _ => setCdb h hk)

theorem refreshGain (h : Core.Keeps F c d) {p : Nat} (hk : F (entKey (pIdx p 2) 5)) :
    Core.Keeps F c (d.refreshGain p) := by
  unfold Core.refreshGain
  refine ite (fun _ => setPe h hk) (fun _ => ?_)
  extract_lets g
  exact ite (fun _ => h) (fun _ => setCdb h hk)

theorem guardRefresh (h : Core.Keeps F c d) {p : Nat} (hF : ∀ k, footGuard p k → F k) :
    Core.Keeps F c (d.guardRefresh p) := by
  have f : ∀ k, footPath p k → F k := fun k hk => hF k (.inl hk)
  unfold Core.guardRefresh
  extract_lets old new c1 n c2 mutes c2' b x c3
  have h1 : Core.Keeps F c c1 := setPe h (hF _ (by simp [footGuard]))
  have h2 : Core.Keeps F c c2 := ite (fun _ => h1) (fun _ =>
    endSweep (irq (count h1 (hF _ (by simp [footGuard]))) (hF _ (by simp [footGuard]))) (fun k hk => hF k (.inr (.inl hk))))
  have h2' : Core.Keeps F c c2' := foldl _ h2 (fun x e _ => yieldPromise refl (hF _ (by simp [footGuard])))
  have h3 : Core.Keeps F c c3 := by
    refine ite (fun _ => setPe (setPe h2' (hF _ (by simp [footGuard]))) (hF _ (by simp [footGuard]))) (fun _ => ?_)
    have hx : Core.Keeps F c x := ite (fun _ => setPe h2' (hF _ (by simp [footGuard]))) (fun _ => h2')
    exact setCdb hx (hF _ (by simp [footGuard]))
  exact refreshPath (refreshGain h3 (hF _ (by simp [footGuard]))) f

theorem refreshMix (h : Core.Keeps F c d) (hF : ∀ n, n < 8 → F (entKey 0x2804 (n + 1))) : Core.Keeps F c d.refreshMix :=
  each h (fun n _ hn => setEntBit refl (hF n (by simpa using hn)))

theorem refreshConverters (h : Core.Keeps F c d)
    (hF : ∀ n, n < 8 → F (entKey 0x2803 (n + 1)) ∧ F (entKey 0x2804 (n + 1))) : Core.Keeps F c d.refreshConverters := by
  unfold Core.refreshConverters
  refine ite (fun _ => h) (fun _ => ?_)
  extract_lets one
  have step : ∀ (tx : Bool) (n : Nat) (e : Core), n ∈ List.range 8 → Core.Keeps F e (one tx e n) := by
    intro tx n e hn
    have hn' : n < 8 := by simpa using hn
    have hi : F (entKey (if tx then 0x2804 else 0x2803) (n + 1)) := by cases tx <;> simp [hF n hn']
    show Core.Keeps F e (if _ then _ else _)
    refine ite (fun _ => upd (setEntBit refl hi) rfl rfl rfl rfl rfl rfl rfl rfl) (fun _ => ?_)
    exact ite (fun _ => upd refl rfl rfl rfl rfl rfl rfl rfl rfl) (fun _ => refl)
  exact refreshMix (each (each h (fun n e hn => step false n e hn)) (fun n e hn => step true n e hn)) (fun n hn => (hF n hn).2)

theorem footMode_path {p k : Nat} (hp : p < 32) (h : footPath p k) : footMode k := by
  rcases h with rfl | rfl | rfl | rfl | rfl
  · exact .inl (onPaths_key _ hp (by omega) (by omega) (by simp))
  · exact .inl (onPaths_key _ hp (by omega) (by omega) (by simp))
  · exact .inl (onPaths_key _ hp (by omega) (by omega) (by simp))
  · exact .inl (onPaths_key _ hp (by omega) (by omega) (by simp))
  · exact .inr (.inl rfl)

theorem footMode_sweep {p k : Nat} (hp : p < 32) (h : footSweep p k) : footMode k := by
  rcases h with rfl | rfl
  · exact .inl (onPaths_key _ hp (by omega) (by omega) (by simp))
  · exact .inl (onPaths_key _ hp (by omega) (by omega) (by simp))

theorem mem_allPaths {p : Nat} (h : p ∈ allPaths) : p < 32 := by simpa [allPaths] using h

theorem enterMode (h : Core.Keeps F c d) {m : Nat} (hF : ∀ k, footMode k → F k) : Core.Keeps F c (d.enterMode m) := by
  have tail : ∀ e : Core, Core.Keeps F c e → Core.Keeps F c e.refreshConverters.refreshPaths := fun e he =>
    refreshPaths (refreshConverters he (fun n hn => ⟨hF _ (by simp only [footMode, entKey]; omega),
      hF _ (by simp only [footMode, entKey]; omega)⟩)) (fun p k hp hk => hF k (footMode_path hp hk))
  unfold Core.enterMode
  extract_lets old c1 c2 src c3
  refine ite (fun _ => tail _ h) (fun _ => ?_)
  have h1 : Core.Keeps F c c1 := irq (emit (setEnt h (hF _ (by simp [footMode])))) (hF _ (by simp [footMode]))
  have h2 : Core.Keeps F c c2 := by
    refine ite (fun _ => each h1 (fun p e hp => ?_)) (fun _ => h1)
    extract_lets x
    have hx : Core.Keeps F e x := modGuardPath (endSweep refl (fun k hk => hF k (footMode_sweep (mem_allPaths hp) hk)))
    exact ite (fun _ => emit hx) (fun _ => hx)
  exact tail _ (ite (fun _ => upd h2 rfl rfl rfl rfl rfl rfl rfl rfl) (fun _ => h2))

theorem recompute (h : Core.Keeps F c d) (hF : ∀ k, footMode k → F k) : Core.Keeps F c d.recompute := by
  unfold Core.recompute
  extract_lets c0
  exact enterMode (setCdb (setEnt h (hF _ (by simp [footMode]))) (hF _ (by simp [footMode]))) hF

theorem latch (h : Core.Keeps F c d) {x : Nat} (hF : ∀ k, footNode k → F k) : Core.Keeps F c (d.latch x) := by
  unfold Core.latch
  extract_lets src c1 c2
  refine ite (fun _ => h) (fun _ => ?_)
  have h1 : Core.Keeps F c c1 := upd h rfl rfl rfl rfl rfl rfl rfl rfl
  exact recompute (irq (emitLatching (setEnt (setEnt h1 (hF _ (by simp [footNode]))) (hF _ (by simp [footNode]))))
    (hF _ (.inl (by simp [footMode])))) (fun k hk => hF k (.inl hk))

theorem twinSend (h : Core.Keeps F c d) {k : Nat} {l : List Byte} : Core.Keeps F c (d.twinSend k l) := by
  unfold Core.twinSend
  exact ite (fun _ => upd h rfl rfl rfl rfl rfl rfl rfl rfl) (fun _ => h)

theorem guardSend (h : Core.Keeps F c d) {a b x : Nat} {v : Int} : Core.Keeps F c (d.guardSend a b x v) := twinSend h

theorem fireCaptures (h : Core.Keeps F c d) {ok : Nat → Bool} : Core.Keeps F c (d.fireCaptures ok) :=
  each h (fun _ _ _ => ite (fun _ => setCapture refl) (fun _ => refl))

theorem noteDecision (h : Core.Keeps F c d) {p x : Nat} : Core.Keeps F c (d.noteDecision p x) := by
  unfold Core.noteDecision
  exact ite (fun _ => upd h rfl rfl rfl rfl rfl rfl rfl rfl) (fun _ => h)

theorem guardActed (h : Core.Keeps F c d) {p a x : Nat} {v : Int} : Core.Keeps F c (d.guardActed p a x v) :=
  guardSend (noteDecision (fireCaptures h))

theorem guardApply (h : Core.Keeps F c d) {p x : Nat} {v : Int} (hF : ∀ k, footGuard p k → F k) :
    Core.Keeps F c (d.guardApply p x v) := by
  unfold Core.guardApply
  extract_lets old c1 new
  have h1 : Core.Keeps F c c1 := guardRefresh h hF
  exact ite (fun _ => h1) (fun _ => guardActed h1)

theorem guardDeepen (h : Core.Keeps F c d) {p x : Nat} {v : Int} (hF : ∀ k, footGuard p k → F k) :
    Core.Keeps F c (d.guardDeepen p x v) := by
  unfold Core.guardDeepen
  extract_lets old
  refine ite (fun _ => guardApply h hF) (fun _ => guardActed (guardRefresh (endSweep (irq (count h ?_) ?_) ?_) hF))
  · exact hF _ (by simp [footGuard])
  · exact hF _ (by simp [footGuard])
  · exact fun k hk => hF k (.inr (.inl hk))

theorem guardNode (h : Core.Keeps F c d) {a x : Nat} {v : Int} (hF : ∀ k, footNode k → F k) :
    Core.Keeps F c (d.guardNode a x v) :=
  guardSend (irq (fireCaptures (each h (fun _ _ hp =>
    endSweep refl (fun k hk => hF k (.inl (footMode_sweep (mem_allPaths hp) hk))))))
    (hF _ (.inl (by simp [footMode]))))

theorem nodeYield (h : Core.Keeps F c d) {x : Nat} (hF : ∀ k, footNode k → F k) : Core.Keeps F c (d.nodeYield x) := by
  unfold Core.nodeYield
  exact ite (fun _ => yieldPromise h (hF _ (by simp [footNode]))) (fun _ => h)

theorem guardLatch (h : Core.Keeps F c d) {x : Nat} (hF : ∀ k, footNode k → F k) : Core.Keeps F c (d.guardLatch x) := by
  unfold Core.guardLatch
  exact ite (fun _ => h) (fun _ => nodeYield (guardNode (latch h hF) hF) hF)

theorem refreshNode (h : Core.Keeps F c d) (hF : ∀ k, footNode k → F k) : Core.Keeps F c d.refreshNode := by
  unfold Core.refreshNode
  extract_lets old u new c1 c2
  have h1 : Core.Keeps F c c1 := setEntBit (setEntBit h (hF _ (by simp [footNode]))) (hF _ (by simp [footNode]))
  refine ite (fun _ => h1) (fun _ => ?_)
  have h2 : Core.Keeps F c c2 := emit (setCdb h1 (hF _ (by simp [footNode])))
  exact recompute (ite (fun _ => guardNode h2 hF) (fun _ => h2)) (fun k hk => hF k (.inl hk))

end Keeps

end Sys2Proof.Machine
end

