-- ==== Sys2Proof/Laws/Serve.lean ====
section
/-! SUPPORT. What the service of a write and a moment of the part's own can do, as the statements speak of it. -/

set_option Elab.async false

namespace Sys2Proof.Machine

theorem footReply_key {i sub : Nat} (h : footReply (entKey i sub)) (hs : sub < 256) :
    (i = 0x1133 ∧ (sub = 1 ∨ sub = 2 ∨ sub = 5)) ∨ (i = 0x1134 ∧ sub = 0) ∨ (i = 0x5130 ∧ sub = 1) := by
  simp only [footReply, entKey] at h
  omega

theorem Keeps.countServed {F : Nat → Prop} {c d : Core} (h : Core.Keeps F c d) {code : Nat} (hF : ∀ k, footReply k → F k) :
    Core.Keeps F c (d.countServed code) := by
  unfold Core.countServed
  extract_lets c1 c2
  have h1 : Core.Keeps F c c1 := wrapAdd h (hF _ (.inl rfl))
  have h2 : Core.Keeps F c c2 := ite (fun _ => h1) (fun _ => count h1 (hF _ (.inr (.inl rfl))))
  exact ite (fun _ => count h2 (hF _ (.inr (.inr (.inl rfl))))) (fun _ => h2)

theorem Keeps.setPort {F : Nat → Prop} {c d : Core} (h : Core.Keeps F c d) {q : Nat} {p : PortSt} :
    Core.Keeps F c (d.setPort q p) := upd h rfl rfl rfl rfl rfl rfl rfl rfl

theorem Keeps.modPort {F : Nat → Prop} {c d : Core} (h : Core.Keeps F c d) {q : Nat} {f : PortSt → PortSt} :
    Core.Keeps F c (d.modPort q f) := setPort h

theorem Keeps.queuePacket {F : Nat → Prop} {c d : Core} (h : Core.Keeps F c d) {l : List Nat} {b : Bool} {p : List Byte} :
    Core.Keeps F c (d.queuePacket l b p) := foldl _ h (fun _ _ _ => modPort refl)

theorem Keeps.originate {F : Nat → Prop} {c d : Core} (h : Core.Keeps F c d) {a b r : Nat} {l : List Byte}
    (hk : F (entKey 0x5130 1)) : Core.Keeps F c (d.originate a b r l).1 := by
  unfold Core.originate
  extract_lets ports
  split
  · exact h
  · exact wrapAdd (queuePacket h) hk

theorem Keeps.touchOwner {F : Nat → Prop} {c d : Core} (h : Core.Keeps F c d) {o : Origin} :
    Core.Keeps F c (d.touchOwner o) := by
  unfold Core.touchOwner
  exact ite (fun _ => upd h rfl rfl rfl rfl rfl rfl rfl rfl) (fun _ => h)

theorem Core.touchOwner_ent (c : Core) (o : Origin) (i sub : Nat) : (c.touchOwner o).ent i sub = c.ent i sub := by
  unfold Core.touchOwner; split <;> rfl

theorem State.reply_keeps (s : State) (o : Origin) (b : List Byte) : Core.Keeps footReply s.core (s.reply o b).core := by
  unfold State.reply
  split
  · exact Keeps.refl
  · split
    · exact Keeps.irq Keeps.refl (.inr (.inr (.inr (.inl rfl))))
    · exact Keeps.refl
    · exact Keeps.originate Keeps.refl (.inr (.inr (.inr (.inr rfl))))

/-- The end of a served request moves the counters of requests and what its response moves: nothing else of the core. -/
theorem State.finish_keeps (s : State) (o : Origin) (op i sub code flags : Nat) (v : List Byte) :
    Core.Keeps footReply s.core (s.finish o op i sub code flags v).core := by
  unfold State.finish
  split
  · exact Keeps.refl
  · exact Keeps.trans (Keeps.countServed Keeps.refl (fun _ h => h))
      (State.reply_keeps (s.onCore (fun c => c.countServed code)) _ _)

/-- A write that is taken and passes its checks: its action's core, then the counters and the response. -/
theorem State.serveWrite_core {s : State} {o : Origin} {i sub : Nat} {v : List Byte} (h : Accepts s o i sub v)
    (f : Core → Nat × Core) :
    Core.Keeps footReply (f (s.core.touchOwner o)).2 (s.serveWrite o i sub v (coreAct f)).core ∧
      BesideLink s (s.serveWrite o i sub v (coreAct f)) := by
  refine ⟨?_, ?_⟩
  · rw [State.serveWrite_served s o i sub v _ h.1 h.2]
    exact State.finish_keeps { s.taken o with core := (f (s.core.touchOwner o)).2 } _ _ _ _ _ _ _
  · exact State.serveWrite_core_frame s o i sub v f

/-- The same for an action on the whole state. -/
theorem State.serveWrite_act {s : State} {o : Origin} {i sub : Nat} {v : List Byte} (h : Accepts s o i sub v) (act : Act) :
    let r := (act (s.taken o)).2.2
    Core.Keeps footReply r.core (s.serveWrite o i sub v act).core ∧ BesideLink r (s.serveWrite o i sub v act) := by
  rw [State.serveWrite_served s o i sub v _ h.1 h.2]
  exact ⟨State.finish_keeps _ _ _ _ _ _ _ _, State.finish_frame _ _ _ _ _ _ _ _⟩

/-- The end of a served request changes of the core the entries, the overflow flags and the Line's queues: no other field. -/
def Core.Answers (c d : Core) : Prop :=
  ∃ (dict : Tab Nat) (sticky : List Nat) (ports : Tab PortSt), d = { c with dict, sticky, line := { c.line with ports } }

theorem Answers.refl (c : Core) : Core.Answers c c := ⟨c.dict, c.sticky, c.line.ports, rfl⟩

theorem Answers.trans {c d e : Core} (h : Core.Answers c d) (h' : Core.Answers d e) : Core.Answers c e := by
  obtain ⟨a, b, x, rfl⟩ := h
  obtain ⟨a', b', x', rfl⟩ := h'
  exact ⟨a', b', x', rfl⟩

theorem Answers.setEnt (c : Core) (i sub v : Nat) : Core.Answers c (c.setEnt i sub v) := ⟨_, c.sticky, c.line.ports, rfl⟩

theorem Answers.count (c : Core) (i sub n : Nat) : Core.Answers c (c.count i sub n) := by
  simp only [Core.count]
  split
  · exact Answers.setEnt c _ _ _
  · split
    · exact Answers.setEnt c _ _ _
    · exact ⟨_, _, c.line.ports, rfl⟩

theorem Answers.queuePacket (c : Core) (l : List Nat) (b : Bool) (q : List Byte) : Core.Answers c (c.queuePacket l b q) := by
  unfold Core.queuePacket
  induction l generalizing c with
  | nil => exact Answers.refl c
  | cons x r ih => exact Answers.trans ⟨c.dict, c.sticky, _, rfl⟩ (ih _)

theorem Answers.countServed (c : Core) (code : Nat) : Core.Answers c (c.countServed code) := by
  unfold Core.countServed
  extract_lets c1 c2
  have h1 : Core.Answers c c1 := Answers.setEnt c _ _ _
  have h2 : Core.Answers c c2 := by
    show Core.Answers c (if _ then _ else _)
    split
    · exact h1
    · exact Answers.trans h1 (Answers.count _ _ _ _)
  split
  · exact Answers.trans h2 (Answers.count _ _ _ _)
  · exact h2

theorem State.finish_answers (s : State) (o : Origin) (op i sub code flags : Nat) (v : List Byte) :
    Core.Answers s.core (s.finish o op i sub code flags v).core := by
  unfold State.finish
  split
  · exact Answers.refl _
  · refine Answers.trans (Answers.countServed s.core code) ?_
    unfold State.reply
    split
    · exact Answers.refl _
    · split
      · exact Answers.setEnt _ _ _ _
      · exact Answers.refl _
      · show Core.Answers _ (Core.originate _ _ _ _ _).1
        unfold Core.originate
        extract_lets ports
        split
        · exact Answers.refl _
        · exact Answers.trans (Answers.queuePacket _ _ _ _) (Answers.setEnt _ _ _ _)

theorem Core.touchOwner_cases (c : Core) (o : Origin) : c.touchOwner o = c ∨ c.touchOwner o = { c with ownerSeen := c.now } := by
  unfold Core.touchOwner
  split
  · exact .inr rfl
  · exact .inl rfl

/-- A write whose action keeps to the core, taken and passing its checks: it answers a state whose entries are those of the
action's core but for the counters and the response; nothing beside the core and the response moves. -/
theorem State.served {s : State} {o : Origin} {i sub : Nat} {v : List Byte} (h : Accepts s o i sub v)
    (f : Core → Nat × Core) {d : Core} (hd : (f (s.core.touchOwner o)).2 = d) :
    Core.Keeps footReply d (s.serveWrite o i sub v (coreAct f)).core ∧
      Core.Answers d (s.serveWrite o i sub v (coreAct f)).core ∧
      BesideLink s (s.serveWrite o i sub v (coreAct f)) ∧
      ∀ F, Core.Keeps F (s.core.touchOwner o) d → Writes F s (s.serveWrite o i sub v (coreAct f)) := by
  have k := State.serveWrite_core h f
  rw [hd] at k
  refine ⟨k.1, ?_, k.2, fun F hF => ⟨k.2, ?_⟩⟩
  · rw [State.serveWrite_served s o i sub v _ h.1 h.2, ← hd]
    exact State.finish_answers { s.taken o with core := (f (s.core.touchOwner o)).2 } o 2 i sub _ _ _
  · intro j t hk
    rw [Keeps.ent k.1 j t (fun x => hk (.inl x)), Keeps.ent hF j t (fun x => hk (.inr x)), Core.touchOwner_ent]

/-- As `State.served`, from the core that the action leaves on the core as the owner of the pending set was noted. -/
theorem State.servedAs {s : State} {o : Origin} {i sub : Nat} {v : List Byte} {act : Act} (h : Accepts s o i sub v) (d : Core)
    (hf : ∃ f, act = coreAct f) (hd : ∀ n, (act { s with core := { s.core with ownerSeen := n } }).2.2.core = { d with ownerSeen := n }) :
    ∃ n, Core.Keeps footReply { d with ownerSeen := n } (s.serveWrite o i sub v act).core ∧
      Core.Answers { d with ownerSeen := n } (s.serveWrite o i sub v act).core ∧
      BesideLink s (s.serveWrite o i sub v act) ∧
      ∀ F, Core.Keeps F s.core d → Writes F s (s.serveWrite o i sub v act) := by
  obtain ⟨f, rfl⟩ := hf
  obtain ⟨n, hn⟩ : ∃ n, s.core.touchOwner o = { s.core with ownerSeen := n } := by
    unfold Core.touchOwner
    split
    · exact ⟨_, rfl⟩
    · exact ⟨s.core.ownerSeen, rfl⟩
  have e : (f (s.core.touchOwner o)).2 = { d with ownerSeen := n } := by
    rw [hn]; exact hd n
  have k := State.served h f e
  refine ⟨n, k.1, k.2.1, k.2.2.1, fun F hF => k.2.2.2 F ?_⟩
  rw [hn]
  exact ⟨hF.dict, hF.shown, hF.now, hF.clock, hF.phase, hF.ticking, hF.sched, hF.pend⟩

/-- A moment of the part's own that is due: its effect, and everything beside the core as before. -/
theorem ends_event {s : State} {i : Instr} {due : Core → Bool} {f : Core → Core} {q : State → Prop}
    (e : exec i s = s.event due f) (h : due s.core = true) (hq : q (s.onCore f)) : Ends i s q :=
  ⟨s.onCore f, e.trans (State.event_due s h), hq⟩

theorem Beside.onCore (s : State) (f : Core → Core) : Beside s (s.onCore f) := ⟨rfl, rfl, rfl, rfl, rfl⟩

theorem Core.Keeps.untouched {F : Nat → Prop} {s t : State} (h : Core.Keeps F s.core t.core) : Untouched F s t :=
  fun i sub hk => Keeps.ent h i sub hk

/-- A due moment: its core's entries, and everything beside the core as before. -/
theorem moves_event {F : Nat → Prop} {s : State} {f : Core → Core} (h : Core.Keeps F s.core (f s.core)) :
    Moves F s (s.onCore f) := ⟨Beside.onCore s f, fun i sub hk => Keeps.ent h i sub hk⟩

/-- A record presented stays presented. -/
theorem Presents.emit {s : State} {t : State} {d : Core} {source code : Nat} {data : List Byte}
    (h : s.core.presented <+: d.presented) (hc : d.clock = s.core.clock)
    (h' : (d.emit source code data).presented <+: t.core.presented) : Presents s t source code data := by
  obtain ⟨l, hl⟩ := h
  obtain ⟨m, hm⟩ := h'
  refine ⟨l ++ [⟨source, code, padTo 12 data, d.clock, d.timeUncommon, false⟩] ++ m, ?_, ?_⟩
  · rw [← hm]
    show (d.presented ++ _) ++ m = _
    rw [← hl]; simp
  · exact ⟨⟨source, code, padTo 12 data, d.clock, d.timeUncommon, false⟩, by simp, rfl, rfl, rfl, hc⟩

end Sys2Proof.Machine
end

