-- ==== Sys2Proof/Laws/FabricFrames.lean ====
section
/-! SUPPORT. What the fabric's operations leave alone: the path's stages, measurement, captures, the canceller and the Guard's
conditions, as frames of `Core.Keeps`. -/

set_option Elab.async false

namespace Sys2Proof.Machine

theorem onPaths_pIdx {l : List Nat} {p off sub : Nat} (hp : p < 32) (ho : off < 64) (hs : sub < 256)
    (h : off * 256 + sub ∈ l) : onPaths l (entKey (pIdx p off) sub) := onPaths_key l hp ho hs h

namespace Keeps
variable {F : Nat → Prop} {c d e : Core}

theorem tallyMs (h : Core.Keeps F c d) {a b n : Nat} {l : List Byte} : Core.Keeps F c (d.tallyMs a b l n) := by
  unfold Core.tallyMs
  exact ite (fun _ => h) (fun _ => ite (fun _ => upd h rfl rfl rfl rfl rfl rfl rfl rfl) (fun _ => upd h rfl rfl rfl rfl rfl rfl rfl rfl))

theorem tally (h : Core.Keeps F c d) {a b : Nat} {l : List Byte} : Core.Keeps F c (d.tally a b l) := by
  unfold Core.tally
  exact ite (fun _ => upd h rfl rfl rfl rfl rfl rfl rfl rfl) (fun _ => upd h rfl rfl rfl rfl rfl rfl rfl rfl)

theorem tallyOne (h : Core.Keeps F c d) {a b : Nat} {l : List Byte} : Core.Keeps F c (d.tallyOne a b l) := by
  unfold Core.tallyOne
  split <;> exact tally h

theorem firstInSecond (h : Core.Keeps F c d) {a b n : Nat} {l : List Byte} :
    Core.Keeps F c (d.firstInSecond a b n l) := by
  unfold Core.firstInSecond
  exact ite (fun _ => h) (fun _ => upd (emit h) rfl rfl rfl rfl rfl rfl rfl rfl)

theorem setPoints (h : Core.Keeps F c d) {k : Nat} {p : PointsSt} : Core.Keeps F c (d.setPoints k p) :=
  upd h rfl rfl rfl rfl rfl rfl rfl rfl

theorem pointsSend (h : Core.Keeps F c d) {k b t : Nat} : Core.Keeps F c (d.pointsSend k b t) := by
  unfold Core.pointsSend
  exact ite (fun _ => twinSend h) (fun _ => h)

theorem pointsPlace (h : Core.Keeps F c d) {k : Nat} : Core.Keeps F c (d.pointsPlace k) := by
  unfold Core.pointsPlace
  extract_lets p at'
  split
  · exact h
  · extract_lets c1
    have h1 : Core.Keeps F c c1 := setPoints h
    clear_value at'
    split
    · exact ite (fun _ => h1) (fun _ => pointsSend h1)
    · exact h1

theorem pointsPend (h : Core.Keeps F c d) {k b : Nat} : Core.Keeps F c (d.pointsPend k b) := pointsPlace (setPoints h)

theorem pointsCancel (h : Core.Keeps F c d) {k : Nat} : Core.Keeps F c (d.pointsCancel k) := pointsSend (setPoints h)

theorem setPointsState (h : Core.Keeps F c d) {k n r : Nat} (hF : ∀ x, footPoints x → F x) (hk : k < 2) :
    Core.Keeps F c (d.setPointsState k n r) := by
  unfold Core.setPointsState
  extract_lets old fall c1
  have f1 : F (entKey (0x3250 + k) 8) := hF _ (by rcases (by omega : k = 0 ∨ k = 1) with rfl | rfl <;> simp [footPoints])
  have h1 : Core.Keeps F c c1 := setEntBit (setEnt h f1) (hF _ (by simp [footPoints]))
  exact ite (fun _ => emit h1) (fun _ => h1)

theorem pointsFall (h : Core.Keeps F c d) {k : Nat} (hF : ∀ x, footPoints x → F x) (hk : k < 2) :
    Core.Keeps F c (d.pointsFall k) := by
  unfold Core.pointsFall
  extract_lets p sel rem c1
  refine ite (fun _ => h) (fun _ => ite (fun _ => setPointsState h hF hk) (fun _ => ite (fun _ => ?_) (fun _ => setPointsState h hF hk)))
  have h1 : Core.Keeps F c c1 := setPointsState h hF hk
  exact ite (fun _ => pointsPend h1) (fun _ => ite (fun _ => pointsCancel h1) (fun _ => h1))

theorem refreshPoints (h : Core.Keeps F c d) (hF : ∀ x, footPoints x → F x) : Core.Keeps F c d.refreshPoints := by
  unfold Core.refreshPoints
  refine each h (fun k e hk => ?_)
  have hk' : k < 2 := by simp at hk; omega
  extract_lets p a b
  exact ite (fun _ => refl) (fun _ => pointsFall (setPoints refl) hF hk')

theorem refreshNeed (h : Core.Keeps F c d) {p : Nat} (hk : F (entKey (pIdx p 9) 1)) : Core.Keeps F c (d.refreshNeed p) :=
  setPe h hk

theorem stopPath (h : Core.Keeps F c d) {p : Nat} (hk : F (entKey (pIdx p 9) 1)) : Core.Keeps F c (d.stopPath p) :=
  refreshNeed (modPath h) hk

theorem orderReset (h : Core.Keeps F c d) {p x t : Nat} (hF : ∀ k, footReset p k → F k) :
    Core.Keeps F c (d.orderReset p x t) := by
  unfold Core.orderReset
  refine ite (fun _ => h) (fun _ => ?_)
  extract_lets c1
  have h1 : Core.Keeps F c c1 := emit (setPe (count h (hF _ (by simp [footReset]))) (hF _ (by simp [footReset])))
  exact refreshPath (refreshNeed (modPath h1) (hF _ (by simp [footReset]))) (fun k hk => hF k (.inl hk))

theorem block {p off sub : Nat} (hp : p < 32) (ho : off < 64) (hs : sub < 256) : footFabric (entKey (pIdx p off) sub) :=
  .inl (by simp only [entKey, pIdx]; omega)

theorem fabric_guard {p k : Nat} (hp : p < 32) (h : footGuard p k) : footFabric k := by
  rcases h with h | h | rfl | rfl | rfl | rfl | rfl | rfl | rfl
  · exact .inr (.inl (.inl (footMode_path hp h)))
  · exact .inr (.inl (.inl (footMode_sweep hp h)))
  · exact block hp (by omega) (by omega)
  · exact block hp (by omega) (by omega)
  · exact block hp (by omega) (by omega)
  · exact block hp (by omega) (by omega)
  · exact block hp (by omega) (by omega)
  · exact .inr (.inl (.inl (by simp [footMode])))
  · exact .inr (.inl (by simp [footNode]))

theorem fabric_node {k : Nat} (h : footNode k) : footFabric k := .inr (.inl h)

section Express
variable {p : Nat} (hF : ∀ k, footExpress p k → F k)
include hF

/-- A key of the detector's or the squelch's entries. -/
theorem xk {off sub : Nat} (h : 0x2001 ≤ off * 256 + sub ∧ off * 256 + sub ≤ 0x2107 := by omega) :
    F (entKey (pIdx p off) sub) := by
  refine hF _ (Or.inr (Or.inr (Or.inl ?_)))
  unfold entKey pIdx
  omega

theorem oscDecide (h : Core.Keeps F c d) {l r : Int} {x : Nat} : Core.Keeps F c (d.oscDecide p l r x) := by
  have hn : ∀ k, footNode k → F k := fun k hk => hF k (.inr (.inl hk))
  unfold Core.oscDecide
  extract_lets n l third c1 c2 c3 c4 c5 c6' src c6
  have h1 : Core.Keeps F c c1 := setPe (count (setPe h (xk hF)) (xk hF)) (xk hF)
  have h4 : Core.Keeps F c c4 := guardApply (emit (modGuardPath h1)) (fun k hk => hF k (.inl hk))
  have h5 : Core.Keeps F c c5 := ite (fun _ => yieldPromise h4 (hF _ (by simp only [footExpress, entKey]; omega))) (fun _ => h4)
  have h6 : Core.Keeps F c c6 := refreshNode (upd (setCdb (i := 0x3102) (sub := 0) (v := some (-600)) h5 (hF _ (by simp [footExpress])))
    rfl rfl rfl rfl rfl rfl rfl rfl) hn
  exact ite (fun _ => guardLatch h6 hn) (fun _ => h6)

theorem oscWindow (h : Core.Keeps F c d) {j r : Nat} {l : Int} {b : Bool} : Core.Keeps F c (d.oscWindow p j l b r) := by
  unfold Core.oscWindow
  extract_lets keep st ref c0 g high n c1 c2
  refine ite (fun _ => modGuardPath h) (fun _ => modGuardPath ?_)
  have h0 : Core.Keeps F c c0 := setCdb h (xk hF)
  refine ite (fun _ => ite (fun _ => modGuardPath (setPe h0 (xk hF))) (fun _ => h0)) (fun _ => ?_)
  have h1 : Core.Keeps F c c1 := modGuardPath h0
  exact ite (fun _ => oscDecide hF h1) (fun _ => ite (fun _ => setPe h1 (xk hF)) (fun _ => h1))

theorem squelchWindow (h : Core.Keeps F c d) {l : Option Int} : Core.Keeps F c (d.squelchWindow p l) := by
  have hg : ∀ k, footGuard p k → F k := fun k hk => hF k (.inl hk)
  unfold Core.squelchWindow
  refine ite (fun _ => h) (fun _ => ?_)
  split
  · exact modGuardPath h
  · refine ite (fun _ => ite (fun _ => guardApply (modGuardPath (count (setPe h (xk hF)) (xk hF))) hg) (fun _ => h)) (fun _ => ?_)
    exact ite (fun _ => guardApply (modGuardPath (setPe h (xk hF))) hg) (fun _ => modGuardPath h)

theorem squelchEntry (h : Core.Keeps F c d) : Core.Keeps F c (d.squelchEntry p) :=
  guardApply (modGuardPath (setPe h (xk hF))) (fun k hk => hF k (.inl hk))

theorem overWarning (h : Core.Keeps F c d) {l : Option Int} : Core.Keeps F c (d.overWarning p l) := by
  unfold Core.overWarning
  extract_lets thr at' c1
  have h1 : Core.Keeps F c c1 := setEntBit h (hF _ (.inr (.inl (by simp [footNode]))))
  split
  · exact ite (fun _ => firstInSecond h1) (fun _ => h1)
  · exact h1

theorem guardExpress (h : Core.Keeps F c d) {j f r : Nat} {l : Option Int} : Core.Keeps F c (d.guardExpress p j l f r) := by
  unfold Core.guardExpress
  refine overWarning hF (squelchWindow hF ?_)
  split
  · exact oscWindow hF h
  · exact h

end Express

section Noise
variable {p : Nat} (hF : ∀ k, footNoise p k → F k)
include hF

theorem noiseInterval (h : Core.Keeps F c d) {l : Int} : Core.Keeps F c (d.noiseInterval p l) := by
  have hg : ∀ k, footGuard p k → F k := fun k hk => hF k (.inl hk)
  unfold Core.noiseInterval
  extract_lets b limit step c1 b' run
  have hs : ∀ (e : Core) (b : Bool) (x : Int), Core.Keeps F c e → Core.Keeps F c (step e b x) := by
    intro e b x he
    simp only [step]
    have h1 := emit (s := 35) (x := 0x0705) (l := d8 p ++ dS16 x)
      (count (n := 1) (setCdb (v := some x) he (hF (entKey (pIdx p 0x22) 4) (by simp [footNoise])))
        (hF (entKey (pIdx p 0x22) 5) (by simp [footNoise])))
    exact ite (fun _ => guardDeepen h1 hg) (fun _ => guardApply h1 hg)
  refine ite (fun _ => h) (fun _ => ite (fun _ => ?_) (fun _ => ite (fun _ => ?_) (fun _ => modGuardPath h)))
  · exact ite (fun _ => hs _ _ _ (modGuardPath h)) (fun _ => modGuardPath h)
  · exact ite (fun _ => modGuardPath h) (fun _ => ite (fun _ => hs _ _ _ (modGuardPath h)) (fun _ => modGuardPath h))

end Noise

theorem fabric_express {p k : Nat} (hp : p < 32) (h : footExpress p k) : footFabric k := by
  rcases h with h | h | h | h | h
  · exact fabric_guard hp h
  · exact fabric_node h
  · exact .inl (by simp only [entKey, pIdx] at *; omega)
  · exact .inr (.inr (.inr (.inl h)))
  · exact .inr (.inr (.inr (.inr (.inl h))))

theorem fabric_noise {p k : Nat} (hp : p < 32) (h : footNoise p k) : footFabric k := by
  rcases h with h | rfl | rfl
  · exact fabric_guard hp h
  · exact block hp (by omega) (by omega)
  · exact block hp (by omega) (by omega)

/-- Every sink of a path is an RFOUT or a Line port. -/
theorem releases_sink {g : Cfg} {p b : Nat} {y : Nat × Nat × Nat} (h : y ∈ g.releases p b) : y.1 < 12 := by
  obtain ⟨z, hz, rfl⟩ := List.mem_map.1 h
  have ok := (List.mem_filter.1 hz).2
  simp only [sinkOk, epListed, Bool.and_eq_true, Bool.or_eq_true, decide_eq_true_eq] at ok
  obtain ⟨l, (h0 | h4) | h5⟩ := ok
  · simp only [h0, decide_eq_true_eq] at l
    rw [if_neg (by omega)]
    show 8 + epPort z < 12
    rw [l]; decide
  · simp only [h4, Bool.and_eq_true, decide_eq_true_eq] at l
    rw [if_pos h4]
    show epNum z < 12
    omega
  · simp only [h5, Bool.and_eq_true, decide_eq_true_eq] at l
    rw [if_neg (by omega)]
    show 8 + epPort z < 12
    omega

section Fabric
variable {p : Nat} (hF : ∀ k, footFabric k → F k) (hp : p < 32)
include hF hp

/-- A key of the path's block. -/
theorem bk {off sub : Nat} (ho : off < 64 := by omega) (hs : sub < 256 := by omega) : F (entKey (pIdx p off) sub) :=
  hF _ (block hp ho hs)

theorem exReport (h : Core.Keeps F c d) {pt : Point} {n f : Nat} {l : Option Int} :
    Core.Keeps F c (d.exReport p pt n f l) := by
  have ho : exOff pt < 64 := by cases pt <;> simp [exOff]
  unfold Core.exReport
  extract_lets i c1
  have h1 : Core.Keeps F c c1 := setEnt (setEnt (setCdb h (bk hF hp ho)) (bk hF hp ho)) (bk hF hp ho)
  split
  · exact count h1 (bk hF hp ho)
  · exact ite (fun _ => setCdb h1 (bk hF hp ho)) (fun _ => h1)

omit hF hp in
theorem exTrigger (h : Core.Keeps F c d) {pt : Point} {s : Nat} {l : Int} : Core.Keeps F c (d.exTrigger p pt s l) :=
  each h (fun _ _ _ => ite (fun _ => setCapture refl) (fun _ => refl))

theorem exEnd (h : Core.Keeps F c d) {pt : Point} {n x : Nat} : Core.Keeps F c (d.exEnd p pt n x) := by
  unfold Core.exEnd
  extract_lets s w flags rep c0 r level c1 c2 rho
  have hr : Core.Keeps F c c0 → Core.Keeps F c r.2 := by
    intro h
    show Core.Keeps F c (if _ then _ else _ : Int × Core).2
    split
    · exact h
    · exact drawIn h
  have h0 : Core.Keeps F c c0 := modPath h
  have h1 : Core.Keeps F c c1 := exReport hF hp (ite (fun _ => hr h0) (fun _ => h0))
  have h2 : Core.Keeps F c c2 := by
    clear_value level
    simp only [c2]
    split
    · exact exTrigger h1
    · exact h1
  cases pt
  · exact guardExpress (fun k hk => hF k (fabric_express hp hk)) (setPe h2 (bk hF hp))
  · exact h2

theorem stEnd (h : Core.Keeps F c d) {pt : Point} {n : Nat} {b : Bool} : Core.Keeps F c (d.stEnd p pt n b) := by
  have ho : stOff pt < 64 := by cases pt <;> simp [stOff]
  unfold Core.stEnd
  extract_lets s w short flags rep level i zero c0 c1
  have h1 : Core.Keeps F c c1 := setEnt (setEnt (setEnt (setCdb (modPath h) (bk hF hp ho)) (bk hF hp ho)) (bk hF hp ho)) (bk hF hp ho)
  clear_value level
  split
  · exact count h1 (bk hF hp ho)
  · exact modGuardPath h1
  · exact noiseInterval (fun k hk => hF k (fabric_noise hp hk)) h1

theorem exSample (h : Core.Keeps F c d) {pt : Point} {x : Sample} {b : Bool} : Core.Keeps F c (d.exSample p pt x b) := by
  unfold Core.exSample
  extract_lets b n c1
  refine modPath ?_
  simp only [c1]
  split
  · exact ite (fun _ => h) (fun _ => exEnd hF hp h)
  · exact h

theorem stSample (h : Core.Keeps F c d) {pt : Point} {x : Sample} {b : Bool} : Core.Keeps F c (d.stSample p pt x b) := by
  unfold Core.stSample
  extract_lets b n starts w0 c1 w old flags
  have h1 : Core.Keeps F c c1 := by
    simp only [c1]
    split
    · exact ite (fun _ => h) (fun _ => stEnd hF hp h)
    · exact ite (fun _ => stEnd hF hp h) (fun _ => h)
  exact ite (fun _ => h) (fun _ => ite (fun _ => h1) (fun _ => modPath h1))

omit hp in
theorem captureSample (h : Core.Keeps F c d) {n : Nat} (hn : n < 4) {x : Sample} {b : Bool} :
    Core.Keeps F c (d.captureSample n x b) := by
  have hk : ∀ sub, sub < 256 → F (entKey (0x2A10 + n) sub) := fun sub hs => hF _ (by simp only [footFabric, entKey]; omega)
  unfold Core.captureSample
  extract_lets i s f c1 c2
  refine ite (fun _ => h) (fun _ => ite (fun _ => setCapture h) (fun _ => ?_))
  have h2 : Core.Keeps F c c2 := ite (fun _ => setEnt (setCapture h) (hk _ (by omega))) (fun _ => setCapture h)
  unfold Core.captureTrigger
  extract_lets i s
  split
  · exact h2
  · extract_lets after
    split
    · exact h2
    · refine emit ?_
      unfold Core.captureOrigin
      exact setEnt (setEnt (setEnt (setEnt (setCapture h2) (hk _ (by omega))) (hk _ (by omega))) (hk _ (by omega))) (hk _ (by omega))

theorem passPoint (h : Core.Keeps F c d) {pt : Point} {x : Sample} : Core.Keeps F c (d.passPoint p pt x) := by
  unfold Core.passPoint
  extract_lets inside c1
  exact each (stSample hF hp (exSample hF hp h)) (fun n e hn =>
    ite (fun _ => captureSample hF refl (by simp at hn; omega)) (fun _ => refl))

theorem cancSaturate (h : Core.Keeps F c d) {n : Nat} : Core.Keeps F c (d.cancSaturate p n) := by
  unfold Core.cancSaturate
  exact ite (fun _ => h) (fun _ => tallyMs (count h (bk hF hp)))

omit hF hp in
theorem ratioCdb (h : Core.Keeps F c d) {a b : Nat} : Core.Keeps F c (d.ratioCdb a b).2 := by
  unfold Core.ratioCdb
  split
  · exact drawIn h
  · exact h

omit hF hp in
theorem isolation (h : Core.Keeps F c d) {x : Energies} : Core.Keeps F c (d.isolation x).2.2.2 := by
  unfold Core.isolation
  exact ratioCdb h

theorem ratioFlag (h : Core.Keeps F c d) {k sub code a b r : Nat} (hs : sub < 256) :
    Core.Keeps F c (d.ratioFlag p k sub code a b r).1 := by
  unfold Core.ratioFlag
  extract_lets x c1 high low was run now c2
  clear_value high low now
  have hx : Core.Keeps F c x.2 := by
    show Core.Keeps F c (if _ then _ else _ : Int × Core).2
    split
    · exact h
    · exact ratioCdb h
  have h2 : Core.Keeps F c c2 := setEntBit (setCdb hx (bk hF hp (hs := hs))) (bk hF hp)
  exact ite (fun _ => h2) (fun _ => emit h2)

theorem corrEnd (h : Core.Keeps F c d) : Core.Keeps F c (d.corrEnd p) := by
  unfold Core.corrEnd
  generalize atFloor = floorOk
  have hq : ∀ (b : Core) (m n : Nat), Core.Keeps F c b → Core.Keeps F c (Core.ratioCdb b m n).2 := fun _ _ _ hb => ratioCdb hb
  revert hq
  generalize Core.ratioCdb = ratio
  intro hq
  extract_lets k w valid c0 c1 taps e r c2 hh v c3 pk c4 t x
  clear_value valid e pk
  have h1 : Core.Keeps F c c1 := setEntBit (setEntBit (modCanc h) (bk hF hp)) (bk hF hp)
  refine ite (fun _ => h1) (fun _ => modCanc ?_)
  have hr : Core.Keeps F c r.2.2.2 := isolation h1
  have h2 : Core.Keeps F c c2 := setEntBit (setCdb (setCdb hr (bk hF hp)) (bk hF hp)) (bk hF hp)
  have hh2 : Core.Keeps F c hh.2 := hq _ _ _ h2
  have hv : Core.Keeps F c v.2 := hq _ _ _ (setCdb hh2 (bk hF hp))
  have h3 : Core.Keeps F c c3 := setCdb hv (bk hF hp)
  have h4 : Core.Keeps F c c4 := setPe (setPe h3 (bk hF hp)) (bk hF hp)
  have ht : Core.Keeps F c t.1 := ratioFlag hF hp h4 (by omega)
  exact ratioFlag hF hp ht (by omega)

theorem corrSample (h : Core.Keeps F c d) {x : Sample} {e : Int × Int} {l : List (Int × Int)} :
    Core.Keeps F c (d.corrSample p x e l) := by
  unfold Core.corrSample
  extract_lets ts b sweep add w c1 len w1 start
  refine ite (fun _ => modCanc h) (fun _ => ite (fun _ => h) (fun _ => ?_))
  have h1 : Core.Keeps F c c1 := by
    simp only [c1]
    split
    · exact ite (fun _ => h) (fun _ => corrEnd hF hp h)
    · exact h
  exact ite (fun _ => modCanc h1) (fun _ => ite (fun _ => modCanc (modCanc h1)) (fun _ => h1))

omit hF hp in
theorem rhoSample (h : Core.Keeps F c d) {e : Int × Int} {l : List (Int × Int)} :
    Core.Keeps F c (d.rhoSample p e l) := modCanc h

theorem cancel (h : Core.Keeps F c d) {b : Nat} {x : Sample} : Core.Keeps F c (d.cancel p b x).1 := by
  unfold Core.cancel
  generalize atFloor = floorOk
  split
  · exact h
  · extract_lets refs span taps y e floor pr above paused c1 phase adapts a b den u c2 out
    have h1 : Core.Keeps F c c1 := refreshAdapt (setPe h (bk hF hp)) (bk hF hp)
    have h2 : Core.Keeps F c c2 := ite (fun _ => h1) (fun _ => by
      exact cancSaturate hF hp (modCanc h1))
    exact rhoSample (corrSample hF hp h2)

theorem sectSaturate (h : Core.Keeps F c d) {sub n : Nat} (hs : sub < 256) : Core.Keeps F c (d.sectSaturate p sub n) := by
  unfold Core.sectSaturate
  exact ite (fun _ => h) (fun _ => tallyMs (count h (bk hF hp (hs := hs))))

omit hF hp in
theorem cancGoLive (h : Core.Keeps F c d) : Core.Keeps F c (d.cancGoLive p) := by
  unfold Core.cancGoLive
  extract_lets k c1
  have h1 : Core.Keeps F c c1 := ite (fun _ => modCanc h) (fun _ => h)
  exact ite (fun _ => modCanc h1) (fun _ => h1)

omit hF hp in
theorem beginRamp (hG : ∀ k, footGuard p k ∨ k = entKey (pIdx p 0x21) 6 → F k) (h : Core.Keeps F c d) {t : Nat} :
    Core.Keeps F c (d.beginRamp p t) := by
  unfold Core.beginRamp
  extract_lets s k c0 c1 c2 c3
  have f : ∀ k, footPath p k → F k := fun k hk => hG k (.inl (.inl hk))
  have h0 : Core.Keeps F c c0 := cancGoLive h
  have h2 : Core.Keeps F c c2 := modPath (emit (setPe (setEntBit h0 (f _ (by simp [footPath]))) (f _ (by simp [footPath]))))
  have h3 : Core.Keeps F c c3 := ite (fun _ => setPe h2 (f _ (by simp [footPath]))) (fun _ => h2)
  exact guardApply (modGuardPath (setPe h3 (hG _ (.inr rfl)))) (fun k hk => hG k (.inl hk))

omit hF hp in
theorem goLive (hG : ∀ k, footGuard p k ∨ k = entKey (pIdx p 0x21) 6 → F k) (h : Core.Keeps F c d) :
    Core.Keeps F c (d.goLive p) := by
  unfold Core.goLive
  extract_lets t
  exact ite (fun _ => beginRamp hG h) (fun _ => modPath h)

/-- The entries that a path's going live moves. -/
theorem lk (k : Nat) (h : footGuard p k ∨ k = entKey (pIdx p 0x21) 6) : F k := by
  rcases h with h | rfl
  · exact hF _ (fabric_guard hp h)
  · exact bk hF hp

theorem mutes (h : Core.Keeps F c d) : Core.Keeps F c (d.refreshPath p) :=
  refreshPath h (fun k hk => lk hF hp k (.inl (.inl hk)))

theorem settleAt (h : Core.Keeps F c d) {b : Nat} : Core.Keeps F c (d.settleAt p b) := by
  unfold Core.settleAt
  extract_lets c1
  have h1 : Core.Keeps F c c1 := modPath (mutes hF hp h)
  exact ite (fun _ => h) (fun _ => ite (fun _ => goLive (lk hF hp) h1) (fun _ => h1))

theorem armedRamp (h : Core.Keeps F c d) {b : Nat} : Core.Keeps F c (d.armedRamp p b) := by
  unfold Core.armedRamp
  extract_lets s
  split
  · exact ite (fun _ => beginRamp (lk hF hp) h) (fun _ => h)
  · exact h

theorem placedRamp (h : Core.Keeps F c d) {b : Nat} : Core.Keeps F c (d.placedRamp p b) := by
  unfold Core.placedRamp
  extract_lets st
  split
  · refine ite (fun _ => h) (fun _ => ite (fun _ => modPath (rampDown h ?_)) (fun _ => modPath h))
    exact fun k hk => lk hF hp k (.inl (.inl hk))
  · exact h

omit hF hp in
theorem rampOn (h : Core.Keeps F c d) {b : Nat} : Core.Keeps F c (d.rampOn p b) := by
  unfold Core.rampOn
  extract_lets s st
  split
  · exact ite (fun _ => setPath h) (fun _ => h)
  · exact h

omit hF hp in
theorem probeSample (h : Core.Keeps F c d) : Core.Keeps F c (d.probeSample p).1 := by
  unfold Core.probeSample
  extract_lets k i q id a rail y
  dsimp only
  exact modCanc h

omit hF hp in
theorem probe (h : Core.Keeps F c d) {x : Sample} : Core.Keeps F c (d.probe p x).1 := by
  unfold Core.probe
  extract_lets k c1 y w
  have h1 : Core.Keeps F c c1 := modCanc h
  split
  · exact h
  · split
    · exact h1
    · exact probeSample h1

theorem transmit (h : Core.Keeps F c d) {x : Sample} : Core.Keeps F c (d.transmit p x).1 :=
  sectSaturate hF hp (setPath h) (by omega)

omit hF hp in
theorem lateSample (h : Core.Keeps F c d) {k b : Nat} (h1 : F (entKey 0x2883 (k + 1))) (h2 : F (entKey 0x2882 (p + 1))) :
    Core.Keeps F c (d.lateSample k p b) := by
  unfold Core.lateSample
  extract_lets s key first seen c1
  have hc : Core.Keeps F c c1 := count (setPath h) h1
  exact ite (fun _ => h) (fun _ => ite (fun _ => modPath (count hc h2)) (fun _ => hc))

theorem retime (h : Core.Keeps F c d) {x : Sample} : Core.Keeps F c (d.retime p x) := by
  unfold Core.retime
  extract_lets r t b dues one gone c1 slacks
  have ht : Core.Keeps F c t.1 := by
    show Core.Keeps F c (if _ then _ else _ : Core × Bool × List (Int × Int)).1
    split
    · exact draw h
    · exact transmit hF hp (draw h)
  have late : ∀ e : Nat × Nat × Nat × Int × Int, e ∈ dues → e.1 < 12 := by
    intro e he
    obtain ⟨y, hy, rfl⟩ := List.mem_map.1 he
    exact releases_sink hy
  have h1 : Core.Keeps F c c1 := by
    refine ite (fun _ => ht) (fun _ => foldl dues ht (fun e a he => ite (fun _ => ?_) (fun _ => setSink refl)))
    have := late e he
    exact lateSample refl (hF _ (by simp only [footFabric, entKey]; omega)) (hF _ (by simp only [footFabric, entKey]; omega))
  exact modPath h1

omit hF hp in
theorem stepAt (h : Core.Keeps F c d) {b : Bool} : Core.Keeps F c (d.stepAt p b) := by
  unfold Core.stepAt
  exact ite (fun _ => modPath h) (fun _ => h)

theorem pathSample (h : Core.Keeps F c d) {b : Nat} {x : Sample} : Core.Keeps F c (d.pathSample p b x) := by
  unfold Core.pathSample
  extract_lets g s coefs y need inp c1 k b0 gain f gi gq si sq subSat c2 s2 mid line place w fr c3
  have h1 : Core.Keeps F c c1 := passPoint hF hp (sectSaturate hF hp (setPath h) (by omega))
  have hk : Core.Keeps F c k.1 := cancel hF hp h1
  have h2 : Core.Keeps F c c2 := cancSaturate hF hp (ite (fun _ => count hk (bk hF hp)) (fun _ => hk))
  have h3 : Core.Keeps F c c3 := refreshNeed (setPath h2) (bk hF hp)
  split
  · exact h3
  · extract_lets o b c4 wt c5 out tx moved
    have h4 : Core.Keeps F c c4 :=
      placedRamp hF hp (armedRamp hF hp (ite (fun _ => settleAt hF hp h3) (fun _ => count h3 (bk hF hp))))
    have h5 : Core.Keeps F c c5.1 := probe (rampOn h4)
    exact retime hF hp (modPath (stepAt (passPoint hF hp h5)))

theorem meetResets (h : Core.Keeps F c d) {b : Nat} : Core.Keeps F c (d.meetResets p b) := by
  unfold Core.meetResets
  extract_lets s due s1 c1
  exact ite (fun _ => h) (fun _ => ite (fun _ => setPe (setPath h) (bk hF hp)) (fun _ => setPath h))

theorem pathWord (h : Core.Keeps F c d) {t : Nat} {l : List (BitVec 12)} : Core.Keeps F c (d.pathWord p t l) := by
  unfold Core.pathWord
  extract_lets g rate birth last c0 s word cic gap o sat q x c1
  have h0 : Core.Keeps F c c0 := ite (fun _ => meetResets hF hp h) (fun _ => h)
  have h1 : Core.Keeps F c c1 := setPath h0
  exact ite (fun _ => h) (fun _ => ite (fun _ => setPath h0) (fun _ => pathSample hF hp
    (ite (fun _ => count h1 (bk hF hp)) (fun _ => h1))))

theorem dropBefore (h : Core.Keeps F c d) : Core.Keeps F c (d.dropBefore p) := by
  unfold Core.dropBefore
  extract_lets c1
  have h1 : Core.Keeps F c c1 := modPath h
  exact mutes hF hp (ite (fun _ => h1) (fun _ => stopPath h1 (bk hF hp)))

theorem lineSample (h : Core.Keeps F c d) {m : Bool} {x : Sample} : Core.Keeps F c (d.lineSample p m x) := by
  unfold Core.lineSample
  extract_lets b c1 s broken s1
  exact pathSample hF hp (setPath (meetResets hF hp h))

theorem standIn (h : Core.Keeps F c d) : Core.Keeps F c (d.standIn p) := by
  unfold Core.standIn
  extract_lets after
  refine ite (fun _ => h) (fun _ => foldl _ h (fun y e _ => ite (fun _ => ?_) (fun _ => lineSample hF hp refl)))
  exact lineSample hF hp (count refl (bk hF hp))

theorem streamSample (h : Core.Keeps F c d) {m l : Bool} {x : Sample} : Core.Keeps F c (d.streamSample p m l x) := by
  unfold Core.streamSample
  refine ite (fun _ => standIn hF hp (modPath h)) (fun _ => ?_)
  split
  · exact ite (fun _ => lineSample hF hp (count h (bk hF hp))) (fun _ => lineSample hF hp h)
  · exact lineSample hF hp h

theorem streamIn (h : Core.Keeps F c d) {m l : Bool} {x : Sample} : Core.Keeps F c (d.streamIn p m l x) := by
  unfold Core.streamIn
  extract_lets g line c1
  have h1 : Core.Keeps F c c1 := modPath h
  refine ite (fun _ => h) (fun _ => ite (fun _ => ?_) (fun _ => streamSample hF hp h))
  split
  · exact streamSample hF hp h1
  · exact h1

end Fabric

theorem put_fold_get {t : Tab Nat} (k : Nat) : (l : List (Nat × Nat)) →
    (l.foldl (fun d e => Tab.put entryDefault d e.1 e.2) t).get entryDefault k =
      match l.reverse.find? (fun e => e.1 = k) with
      | some e => e.2
      | none => t.get entryDefault k := by
  intro l
  induction l generalizing t with
  | nil => rfl
  | cons x r ih =>
    simp only [List.foldl_cons, ih, List.reverse_cons, List.find?_append]
    cases hr : r.reverse.find? (fun e => e.1 = k) with
    | some e => simp
    | none =>
      by_cases hx : x.1 = k
      · simp [hx]
      · simp [hx, Tab.get_put, Ne.symm hx]

/-- Work under the values that a commit replaced leaves outside its footprint what it found. -/
theorem underOld (h : Core.Keeps F c d) {p : Nat} {f : Core → Core} (hf : ∀ e, Core.Keeps F e (f e)) :
    Core.Keeps F c (d.underOld p f) := by
  unfold Core.underOld
  split
  · exact trans h (hf d)
  · rename_i t old _
    extract_lets put new
    have k := hf (put d old)
    refine trans h ⟨?_, k.shown, k.now, k.clock, k.phase, k.ticking, k.sched, k.pend⟩
    intro j hj
    show (new.foldl (fun d e => Tab.put entryDefault d e.1 e.2) (f (put d old)).dict).get entryDefault j = _
    rw [put_fold_get]
    cases hn : new.reverse.find? (fun e => e.1 = j) with
    | some e =>
      have hm : e ∈ new := List.mem_reverse.1 (List.mem_of_find?_eq_some hn)
      have he : e.1 = j := by simpa using List.find?_some hn
      obtain ⟨x, _, rfl⟩ := List.mem_map.1 hm
      simp only at he ⊢
      rw [he]
    | none =>
      show (f (put d old)).dict.get entryDefault j = _
      rw [k.dict j hj]
      show (old.foldl (fun d e => Tab.put entryDefault d e.1 e.2) d.dict).get entryDefault j = _
      rw [put_fold_get]
      cases ho : old.reverse.find? (fun e => e.1 = j) with
      | none => rfl
      | some e =>
        have hm : e ∈ old := List.mem_reverse.1 (List.mem_of_find?_eq_some ho)
        have he : e.1 = j := by simpa using List.find?_some ho
        have : (e.1, d.dict.get entryDefault e.1) ∈ new := List.mem_map.2 ⟨e, hm, rfl⟩
        have no := List.find?_eq_none.1 hn _ (List.mem_reverse.2 this)
        exact absurd he (by simpa using no)

theorem monitorWord (h : Core.Keeps F c d) (hF : ∀ k, footFabric k → F k) {n t : Nat} (hn : n < 4)
    {l : List (BitVec 12)} : Core.Keeps F c (d.monitorWord n t l) := by
  unfold Core.monitorWord
  extract_lets i rate birth word s cic o y x
  exact ite (fun _ => h) (fun _ => ite (fun _ => setCapture h) (fun _ => captureSample hF (setCapture h) hn))

theorem fabricWord (h : Core.Keeps F c d) (hF : ∀ k, footFabric k → F k) {n : Nat} {w : Nat × List (BitVec 12)} :
    Core.Keeps F c (d.fabricWord n w) := by
  unfold Core.fabricWord
  extract_lets one born c1
  have hone : ∀ (p : Nat) (a b : Core), p < 32 → Core.Keeps F a b → Core.Keeps F a (one b p) := fun p a b hp hb =>
    ite (fun _ => pathWord hF hp hb) (fun _ => hb)
  have h1 : Core.Keeps F c c1 := by
    refine each h (fun p e hp => ?_)
    have hp' := mem_allPaths hp
    split
    · exact hone p e e hp' refl
    · extract_lets b
      exact ite (fun _ => hone p e _ hp' (dropBefore hF hp' refl))
        (fun _ => underOld refl (fun x => ite (fun _ => refl) (fun _ => hone p x x hp' refl)))
  exact each h1 (fun k e hk => ite (fun _ => monitorWord refl hF (by simp at hk; omega)) (fun _ => refl))

theorem drain (h : Core.Keeps F c d) (hF : ∀ k, footFabric k → F k) {n : Nat} : Core.Keeps F c (d.drain n) := by
  unfold Core.drain
  extract_lets b r k c1
  exact foldl _ (setRfin (drawIn h)) (fun w e _ => fabricWord refl hF)

end Keeps

end Sys2Proof.Machine
end

