-- ==== Sys2Proof/Laws/PathFrames.lean ====
section
/-! SUPPORT. What each command on a path, a capture or a converter leaves alone. -/

set_option Elab.async false

namespace Sys2Proof.Machine
namespace Keeps
variable {F : Nat → Prop} {c d : Core}

theorem muteWrite {p v : Nat} : Core.Keeps (fun k => footPath p k ∨ k = entKey (pIdx p 3) 0) c (c.muteWrite p v) :=
  refreshPath (setPe refl (.inr rfl)) (fun _ h => .inl h)

theorem syncReset {p x t : Nat} :
    Core.Keeps (fun k => footReset p k ∨ k = entKey (pIdx p 9) 5) c ((c.setPe p 9 5 1).orderReset p x t) :=
  orderReset (setPe refl (.inr rfl)) (fun _ h => .inl h)

theorem stAbandon (h : Core.Keeps F c d) {p : Nat} {pt : Point} {n : Nat}
    (hF : ∀ sub, 1 ≤ sub → sub ≤ 5 → F (entKey (pIdx p (stOff pt)) sub)) : Core.Keeps F c (d.stEnd p pt n true) := by
  unfold Core.stEnd
  extract_lets s w short flags rep level i zero c0 c1
  have h1 : Core.Keeps F c c1 := setEnt (setEnt (setEnt (setCdb (modPath h) (hF 1 (by omega) (by omega)))
    (hF 2 (by omega) (by omega))) (hF 3 (by omega) (by omega))) (hF 5 (by omega) (by omega))
  have hl : level = none := rfl
  rw [hl]
  exact count h1 (hF 4 (by omega) (by omega))

theorem stoppingWrite {p v : Nat} (hp : p < 32) :
    Core.Keeps (onPaths [0x1001, 0x1301, 0x1302, 0x1303, 0x1304, 0x1305, 0x1401, 0x1402, 0x1403, 0x1404, 0x1405]) c
      (c.stoppingWrite p v) := by
  unfold Core.stoppingWrite
  extract_lets c1 c2 wait
  refine ite (fun _ => refl) (fun _ => modPath ?_)
  refine foldl _ (setPe refl (onPaths_key _ hp (by omega) (by omega) (by simp))) (fun pt e _ => ?_)
  have ends : ∀ n, Core.Keeps (onPaths [0x1001, 0x1301, 0x1302, 0x1303, 0x1304, 0x1305, 0x1401, 0x1402, 0x1403, 0x1404, 0x1405]) e
      (e.stEnd p pt n true) := by
    intro n
    refine stAbandon refl (fun sub h1 h2 => ?_)
    cases pt <;> refine onPaths_key _ hp (by simp [stOff]) (by omega) ?_ <;> simp only [stOff, List.mem_cons] <;> omega
  split
  · exact ends _
  · exact ite (fun _ => ends _) (fun _ => refl)

theorem stopCapture (h : Core.Keeps F c d) {n st : Nat} (hF : ∀ sub, 9 ≤ sub → sub ≤ 12 → F (entKey (0x2A10 + n) sub)) :
    Core.Keeps F c (d.stopCapture n st) := by
  unfold Core.stopCapture
  refine ite (fun _ => h) (fun _ => emit ?_)
  unfold Core.captureOrigin
  exact setEnt (setEnt (setEnt h (hF 9 (by omega) (by omega))) (hF 11 (by omega) (by omega))) (hF 12 (by omega) (by omega))

theorem rampEnd {p : Nat} : Core.Keeps (fun k => footPath p k ∨ k = entKey (pIdx p 9) 1) c (c.rampEnd p) := by
  unfold Core.rampEnd
  extract_lets c1
  have h1 : Core.Keeps (fun k => footPath p k ∨ k = entKey (pIdx p 9) 1) c c1 := setPe refl (.inl (.inl rfl))
  refine ite (fun _ => modPath (setPe refl (.inl (.inl rfl)))) (fun _ => refreshPath ?_ (fun _ h => .inl h))
  exact ite (fun _ => stopPath h1 (.inr rfl)) (fun _ => h1)

theorem cv_foot (v : Converter) : footMode (entKey (cvIndex v) (cvNum v + 1)) := by
  cases v <;> simp only [footMode, cvIndex, cvNum, entKey] <;> omega

theorem endForcing (h : Core.Keeps F c d) : Core.Keeps F c d.endForcing := by
  unfold Core.endForcing
  refine ite (fun _ => h) (fun _ => ?_)
  generalize hx : ({ d with supply := { d.supply with forced := false } } : Core) = x
  have h1 : Core.Keeps F c x := by rw [← hx]; exact upd h rfl rfl rfl rfl rfl rfl rfl rfl
  exact each h1 (fun p e _ => ite (fun _ => each refl (fun _ _ _ => setFade refl)) (fun _ => refl))

theorem calibrated {v : Converter} : Core.Keeps footMode c (c.calibrated v) := by
  unfold Core.calibrated
  extract_lets i c1 c2 more
  have h1 : Core.Keeps footMode c c1 := setEntBit refl (cv_foot v)
  have h2 : Core.Keeps footMode c c2 := ite (fun _ => h1) (fun _ => setEntBit h1 (cv_foot v))
  exact refreshPaths (endForcing (upd h2 rfl rfl rfl rfl rfl rfl rfl rfl)) (fun p k hp hk => footMode_path hp hk)

theorem rfinWord {n : Nat} {l : List (BitVec 12)} :
    Core.Keeps (fun k => footFabric k ∨ k = entKey 0x2805 (n + 1) ∨ k = entKey 0x2887 (n + 1)) c (c.rfinWord n l) := by
  unfold Core.rfinWord
  extract_lets clips c1 r full c2
  have h1 : Core.Keeps (fun k => footFabric k ∨ k = entKey 0x2805 (n + 1) ∨ k = entKey 0x2887 (n + 1)) c c1 :=
    ite (fun _ => refl) (fun _ => count refl (.inr (.inl rfl)))
  have h2 : Core.Keeps (fun k => footFabric k ∨ k = entKey 0x2805 (n + 1) ∨ k = entKey 0x2887 (n + 1)) c c2 := setRfin h1
  exact drain (ite (fun _ => count h2 (.inr (.inr rfl))) (fun _ => h2)) (fun _ h => .inl h)

theorem joinSink (h : Core.Keeps F c d) {o p : Nat} {b : Bool} {x r : Int × Int} :
    Core.Keeps F c (d.joinSink o p b x r) := setSink h

theorem contribute (h : Core.Keeps F c d) {o t : Nat} {x : Due} (h1 : F (entKey 0x2883 (o + 1)))
    (h2 : F (entKey 0x2882 (x.path + 1))) : Core.Keeps F c (d.contribute o t x).1 := by
  unfold Core.contribute
  extract_lets p b first late gone zero dark fade w y c1 c3 c2
  have hc : Core.Keeps F c c1 := ite (fun _ => lateSample h h1 h2) (fun _ => h)
  have hc3 : Core.Keeps F c c3 := joinSink hc
  refine ite (fun _ => hc) (fun _ => ?_)
  clear_value fade
  split
  · exact ite (fun _ => hc3) (fun _ => setFade hc3)
  · exact hc3

theorem absent {o t : Nat} {l : List Nat} (h : Core.Keeps F c d) (h1 : F (entKey 0x2883 (o + 1)))
    (h2 : ∀ p, p ∈ l → F (entKey 0x2882 (p + 1))) : Core.Keeps F c (d.absent o t l).1 := by
  have fold : ∀ (l : List Nat) (a : Core × Bool), (∀ p, p ∈ l → F (entKey 0x2882 (p + 1))) → Core.Keeps F c a.1 →
      Core.Keeps F c (l.foldl (fun (a : Core × Bool) p =>
        match a.1.owed p (a.1.cfg.lag p true) t with
        | some b =>
          let first := (b + a.1.cfg.lag p true) % 2 ^ 64 = t
          (if first then (a.1.lateSample o p b).joinSink o p (!a.1.cfg.isTdd p || a.1.inWindow p b) (0, 0) (0, 0) else a.1, false)
        | none => a) a).1 := by
    intro l
    induction l with
    | nil => intro a _ ha; exact ha
    | cons p r ih =>
      intro a hl ha
      refine ih _ (fun q hq => hl q (List.mem_cons_of_mem _ hq)) ?_
      dsimp only
      split
      · exact ite (fun _ => joinSink (lateSample ha h1 (hl p List.mem_cons_self))) (fun _ => ha)
      · exact ha
  exact fold l (d, true) h2 h

theorem releaseWord {o : Nat} :
    Core.Keeps (fun k => k = entKey 0x2806 (o + 1) ∨ k = entKey 0x2883 (o + 1) ∨ ∃ q, k = entKey 0x2882 (q + 1)) c
      (c.releaseWord o) := by
  unfold Core.releaseWord
  extract_lets t span now r m on rounded sat c1 k
  have fold : ∀ (l : List Due) (a : Core × List Int × Bool),
      Core.Keeps (fun k => k = entKey 0x2806 (o + 1) ∨ k = entKey 0x2883 (o + 1) ∨ ∃ q, k = entKey 0x2882 (q + 1)) c a.1 →
      Core.Keeps (fun k => k = entKey 0x2806 (o + 1) ∨ k = entKey 0x2883 (o + 1) ∨ ∃ q, k = entKey 0x2882 (q + 1)) c
        (l.foldl (fun (a : Core × List Int × Bool) d =>
          let x := a.1.contribute o t d
          (x.1, addWords a.2.1 x.2.1, a.2.2 && x.2.2)) a).1 := by
    intro l
    induction l with
    | nil => intro a ha; exact ha
    | cons y s ih => intro a ha; exact ih _ (contribute ha (.inr (.inl rfl)) (.inr (.inr ⟨_, rfl⟩)))
  have hr : Core.Keeps _ c r.1 := fold now _ refl
  have hm : Core.Keeps _ c m.1 := absent hr (.inr (.inl rfl)) (fun p _ => .inr (.inr ⟨p, rfl⟩))
  clear_value r m
  exact setSink (ite (fun _ => hm) (fun _ => count hm (.inl rfl)))

theorem releaseStream {q t e : Nat} :
    Core.Keeps (fun k => k = entKey 0x2807 (q + 1) ∨ k = entKey 0x2883 (8 + q + 1) ∨ ∃ j, k = entKey 0x2882 (j + 1)) c
      (c.releaseStream q t e) := by
  unfold Core.releaseStream
  extract_lets k l late owe c1 c2 x c3 p
  have h2 : Core.Keeps (fun k => k = entKey 0x2807 (q + 1) ∨ k = entKey 0x2883 (8 + q + 1) ∨ ∃ j, k = entKey 0x2882 (j + 1)) c c2 :=
    foldl _ (foldl _ refl (fun x e _ => ite (fun _ => lateSample refl (.inr (.inl rfl)) (.inr (.inr ⟨_, rfl⟩))) (fun _ => refl)))
      (fun x e _ => lateSample refl (.inr (.inl rfl)) (.inr (.inr ⟨_, rfl⟩)))
  refine ite (fun _ => refl) (fun _ => ?_)
  exact upd (ite (fun _ => count h2 (.inl rfl)) (fun _ => h2) : Core.Keeps _ c c3) rfl rfl rfl rfl rfl rfl rfl rfl

theorem releaseStreams {q : Nat} :
    Core.Keeps (fun k => k = entKey 0x2807 (q + 1) ∨ k = entKey 0x2883 (8 + q + 1) ∨ ∃ j, k = entKey 0x2882 (j + 1)) c
      (c.releaseStreams q) :=
  setSink (each refl (fun _ _ _ => releaseStream))

theorem compositeEnd {n : Nat} :
    Core.Keeps (fun k => k = entKey 0x2A00 (n + 1) ∨ k = entKey 0x2A01 (n + 1) ∨ k = entKey 0x2A03 0 ∨ footMode k) c
      (c.compositeEnd n) := by
  unfold Core.compositeEnd
  generalize compositeLevel = level
  extract_lets v src c1 c2 c3
  have h1 : Core.Keeps (fun k => k = entKey 0x2A00 (n + 1) ∨ k = entKey 0x2A01 (n + 1) ∨ k = entKey 0x2A03 0 ∨ footMode k) c c1 :=
    setCdb (setSink refl) (.inl rfl)
  have h3 : Core.Keeps (fun k => k = entKey 0x2A00 (n + 1) ∨ k = entKey 0x2A01 (n + 1) ∨ k = entKey 0x2A03 0 ∨ footMode k) c c3 :=
    setEnt (ite (fun _ => setCdb h1 (.inr (.inl rfl))) (fun _ => h1)) (.inr (.inr (.inl rfl)))
  refine ite (fun _ => each h3 (fun p e hp => ?_)) (fun _ => h3)
  have hp' : p < 32 := by
    have := (List.mem_filter.1 hp).1
    exact mem_allPaths this
  exact refreshPath (modGuardPath (endSweep refl (fun k hk => .inr (.inr (.inr (footMode_sweep hp' hk))))))
    (fun k hk => .inr (.inr (.inr (footMode_path hp' hk))))

theorem stEndInput {p n : Nat} : Core.Keeps (fun k => entKey (pIdx p 0x13) 1 ≤ k ∧ k ≤ entKey (pIdx p 0x13) 5) c
    (c.stEnd p .input n false) := by
  unfold Core.stEnd
  extract_lets s w short flags rep level i zero c0 c1
  have hk : ∀ sub, 1 ≤ sub → sub ≤ 5 → (entKey (pIdx p 0x13) 1 ≤ entKey i sub ∧ entKey i sub ≤ entKey (pIdx p 0x13) 5) := by
    intro sub a b; simp only [i, stOff, entKey]; omega
  have h1 : Core.Keeps (fun k => entKey (pIdx p 0x13) 1 ≤ k ∧ k ≤ entKey (pIdx p 0x13) 5) c c1 :=
    setEnt (setEnt (setEnt (setCdb (modPath refl) (hk 1 (by omega) (by omega)))
      (hk 2 (by omega) (by omega))) (hk 3 (by omega) (by omega))) (hk 5 (by omega) (by omega))
  clear_value level
  split
  · exact count h1 (hk 4 (by omega) (by omega))
  · exact modGuardPath h1
  · rename_i h; cases h

theorem stEndOutput {p n : Nat} :
    Core.Keeps (fun k => (entKey (pIdx p 0x14) 1 ≤ k ∧ k ≤ entKey (pIdx p 0x14) 5) ∨ footNoise p k) c
      (c.stEnd p .output n false) := by
  unfold Core.stEnd
  extract_lets s w short flags rep level i zero c0 c1
  have hk : ∀ sub, 1 ≤ sub → sub ≤ 5 → (entKey (pIdx p 0x14) 1 ≤ entKey i sub ∧ entKey i sub ≤ entKey (pIdx p 0x14) 5) := by
    intro sub a b; simp only [i, stOff, entKey]; omega
  have h1 : Core.Keeps (fun k => (entKey (pIdx p 0x14) 1 ≤ k ∧ k ≤ entKey (pIdx p 0x14) 5) ∨ footNoise p k) c c1 :=
    setEnt (setEnt (setEnt (setCdb (modPath refl) (.inl (hk 1 (by omega) (by omega))))
      (.inl (hk 2 (by omega) (by omega)))) (.inl (hk 3 (by omega) (by omega)))) (.inl (hk 5 (by omega) (by omega)))
  clear_value level
  split
  · exact count h1 (.inl (hk 4 (by omega) (by omega)))
  · rename_i h; cases h
  · exact noiseInterval (fun _ h => .inr h) h1

theorem exEndOutput {p n x : Nat} : Core.Keeps (fun k => entKey (pIdx p 0x12) 1 ≤ k ∧ k ≤ entKey (pIdx p 0x12) 5) c
    (c.exEnd p .output n x) := by
  have hk : ∀ sub, 1 ≤ sub → sub ≤ 5 → (entKey (pIdx p 0x12) 1 ≤ entKey (pIdx p 0x12) sub ∧
      entKey (pIdx p 0x12) sub ≤ entKey (pIdx p 0x12) 5) := by
    intro sub a b; simp only [entKey]; omega
  unfold Core.exEnd
  extract_lets s w flags rep c0 r level c1 c2 rho
  have h0 : Core.Keeps (fun k => entKey (pIdx p 0x12) 1 ≤ k ∧ k ≤ entKey (pIdx p 0x12) 5) c c0 := modPath refl
  have h1 : Core.Keeps (fun k => entKey (pIdx p 0x12) 1 ≤ k ∧ k ≤ entKey (pIdx p 0x12) 5) c c1 := by
    have hb : Core.Keeps (fun k => entKey (pIdx p 0x12) 1 ≤ k ∧ k ≤ entKey (pIdx p 0x12) 5) c
        (if level.isSome then r.2 else c0) := by
      refine ite (fun _ => ?_) (fun _ => h0)
      show Core.Keeps _ c (if _ then _ else _ : Int × Core).2
      split
      · exact h0
      · exact drawIn h0
    simp only [c1]
    generalize (if level.isSome then r.2 else c0) = b at hb
    clear_value level
    unfold Core.exReport
    extract_lets i y
    have hy : Core.Keeps (fun k => entKey (pIdx p 0x12) 1 ≤ k ∧ k ≤ entKey (pIdx p 0x12) 5) c y :=
      setEnt (setEnt (setCdb hb (hk 1 (by omega) (by omega))) (hk 2 (by omega) (by omega))) (hk 5 (by omega) (by omega))
    split
    · exact count hy (hk 4 (by omega) (by omega))
    · exact ite (fun _ => setCdb hy (hk 3 (by omega) (by omega))) (fun _ => hy)
  have h2 : Core.Keeps (fun k => entKey (pIdx p 0x12) 1 ≤ k ∧ k ≤ entKey (pIdx p 0x12) 5) c c2 := by
    clear_value level c1
    simp only [c2]
    split
    · exact exTrigger h1
    · exact h1
  exact h2

theorem zeroTaps (h : Core.Keeps F c d) {p x : Nat} : Core.Keeps F c (d.zeroTaps p x) := emit (modCanc h)

theorem sweepPaid (h : Core.Keeps F c d) {p : Nat} (h1 : F (entKey 0x3007 0)) (h2 : F (entKey 0x110C 0)) :
    Core.Keeps F c (d.sweepPaid p) := by
  unfold Core.sweepPaid
  extract_lets m c1 c2
  refine ite (fun _ => h) (fun _ => persistUnit ?_)
  exact ite (fun _ => setEnt (setEnt h h1) h2) (fun _ => setEnt h h1)

theorem startProbe (h : Core.Keeps F c d) {p : Nat} : Core.Keeps F c (d.startProbe p) := by
  unfold Core.startProbe
  extract_lets i q
  have hi : Core.Keeps F c i.2 := drawIn h
  have hq : Core.Keeps F c q.2 := drawIn hi
  exact modCanc hq

theorem sweepPhase {p : Nat} : Core.Keeps (footSweep p) c (c.sweepPhase p) := by
  unfold Core.sweepPhase
  extract_lets phase c1
  have h1 : Core.Keeps (footSweep p) c c1 := modCanc refl
  refine ite (fun _ => refreshAdapt (setPe (modCanc refl) (.inl rfl)) (.inr rfl)) (fun _ => ?_)
  exact ite (fun _ => startProbe (zeroTaps h1)) (fun _ => ite (fun _ => modCanc h1) (fun _ => h1))

theorem setCal (h : Core.Keeps F c d) {x : List (Nat × Nat × Option SweepStore)} : Core.Keeps F c { d with cal := x } :=
  upd h rfl rfl rfl rfl rfl rfl rfl rfl

theorem sweepResult {p : Nat} :
    Core.Keeps (fun k => (entKey (pIdx p 0x1C) 5 ≤ k ∧ k ≤ entKey (pIdx p 0x1C) 8) ∨ k = entKey 0x3006 0 ∨
      k = entKey 0x3007 0 ∨ k = entKey 0x110C 0) c (c.sweepResult p) := by
  have hk : ∀ sub, 5 ≤ sub → sub ≤ 8 → (entKey (pIdx p 0x1C) 5 ≤ entKey (pIdx p 0x1C) sub ∧
      entKey (pIdx p 0x1C) sub ≤ entKey (pIdx p 0x1C) 8) := by
    intro sub a b; simp only [entKey]; omega
  unfold Core.sweepResult
  refine emit (sweepPaid (setCal (modCanc (setEntBit (setPe (setPe (setCdb (setCdb (isolation refl)
    (.inl (hk 5 (by omega) (by omega)))) (.inl (hk 6 (by omega) (by omega)))) (.inl (hk 8 (by omega) (by omega))))
    (.inl (hk 7 (by omega) (by omega)))) (.inr (.inl rfl)))))
    (.inr (.inr (.inl rfl))) (.inr (.inr (.inr rfl))))

end Keeps
end Sys2Proof.Machine
end

