-- ==== Sys2Proof/Laws/GuardFrames.lean ====
section
/-! SUPPORT. What the Guard's own moments leave alone. -/

set_option Elab.async false

namespace Sys2Proof.Machine.Keeps
variable {F : Nat → Prop} {c d : Core}

theorem oscillationRetry (h : Core.Keeps F c d) {p : Nat} {g : GuardPath → GuardPath} {l : List Byte} (hF : ∀ k, footGuard p k → F k) :
    Core.Keeps F c ((((d.setPe p 0x20 4 0).modGuardPath p g).emit 35 0x0702 l).guardApply p 0x0702 0) :=
  guardApply (emit (modGuardPath (setPe h (hF _ (.inl (by simp [footPath])))))) hF

theorem refreshOverload (h : Core.Keeps F c d) (hF : ∀ k, footFabric k ∨ footPoints k → F k) :
    Core.Keeps F c d.refreshOverload := by
  unfold Core.refreshOverload
  refine each (refreshPoints h (fun x hx => hF x (.inr hx))) (fun p e hp => ?_)
  extract_lets r
  exact ite (fun _ => refl) (fun _ => guardApply (modGuardPath refl)
    (fun k hk => hF k (.inl (fabric_guard (mem_allPaths hp) hk))))

theorem overWindow {n : Nat} :
    Core.Keeps (fun k => footFabric k ∨ footPoints k ∨ k = entKey 0x3121 (n + 1) ∨ k = entKey 0x3122 (n + 1)) c (c.overWindow n) := by
  unfold Core.overWindow
  extract_lets r st high run act release c1
  have h1 : Core.Keeps (fun k => footFabric k ∨ footPoints k ∨ k = entKey 0x3121 (n + 1) ∨ k = entKey 0x3122 (n + 1)) c c1 :=
    setRfin refl
  refine ite (fun _ => ?_) (fun _ => ite (fun _ => h1) (fun _ => setEnt h1 (by simp)))
  exact refreshOverload (irq (emit (count (setEnt h1 (by simp)) (by simp))) (.inl (fabric_node (.inl (by simp [footMode])))))
    (fun k hk => hk.elim .inl (fun x => .inr (.inl x)))

theorem setRefl (h : Core.Keeps F c d) {o : Nat} {r : ReflSt} : Core.Keeps F c (d.setRefl o r) := upd h rfl rfl rfl rfl rfl rfl rfl rfl

theorem reflSet (h : Core.Keeps F c d) {o : Nat} {a b : Bool} (hF : ∀ p, p < 32 → ∀ k, footGuard p k → F k) :
    Core.Keeps F c (d.reflSet o a b) :=
  each h (fun p _ hp => guardApply (modGuardPath refl) (hF p (by
    simp only [Cfg.boundTo, List.mem_filter] at hp; exact mem_allPaths hp.1)))

theorem reflRecord (h : Core.Keeps F c d) {o : Nat} (hk : F (entKey (0x3140 + o) 11)) : Core.Keeps F c (d.reflRecord o) :=
  emit (count (draw h) hk)

theorem oobState (h : Core.Keeps F c d) {p : Nat} (hk : F (entKey (pIdx p 0x23) 5)) : Core.Keeps F c (d.oobState p) :=
  setPe h hk

theorem breachRecord (h : Core.Keeps F c d) {p : Nat} {w : Int × Nat × Nat} : Core.Keeps F c (d.breachRecord p w) :=
  emit (draw h)

section
variable {p : Nat} (hp : p < 32) (hF : ∀ k, footFabric k → F k)
include hp hF

theorem oobMute (h : Core.Keeps F c d) : Core.Keeps F c (d.oobMute p) := by
  unfold Core.oobMute
  extract_lets l c1 c2
  have h2 : Core.Keeps F c c2 := guardApply (emit (setPe (modGuardPath h) (hF _ (block hp (by omega) (by omega)))))
    (fun k hk => hF k (fabric_guard hp hk))
  exact ite (fun _ => guardLatch h2 (fun k hk => hF k (fabric_node hk))) (fun _ => h2)

theorem oobValue (h : Core.Keeps F c d) {m : OobMeasurement} : Core.Keeps F c (d.oobValue p m) := by
  have hb : ∀ {off sub : Nat}, off < 64 → sub < 256 → F (entKey (pIdx p off) sub) := fun ho hs => hF _ (block hp ho hs)
  have hg : ∀ k, footGuard p k → F k := fun k hk => hF k (fabric_guard hp hk)
  unfold Core.oobValue
  extract_lets w g was c0 kk c1 b floor c2 c3 c4 run b' c5 c2' run' c3'
  have h0 : Core.Keeps F c c0 := modGuardPath (setCdb h (hb (by omega) (by omega)))
  have h1 : Core.Keeps F c c1 := by
    refine ite (fun _ => ?_) (fun _ => h0)
    exact refreshNode (emit h0) (fun k hk => hF k (fabric_node hk))
  refine ite (fun _ => ?_) (fun _ => ?_)
  · have h2 : Core.Keeps F c c2 := count h1 (hb (by omega) (by omega))
    have h3 : Core.Keeps F c c3 := ite (fun _ => h2) (fun _ => breachRecord h2)
    have h4 : Core.Keeps F c c4 := modGuardPath h3
    refine ite (fun _ => ite (fun _ => oobMute hp hF h4) (fun _ => oobState (modGuardPath h4) (hb (by omega) (by omega)))) (fun _ => ?_)
    have h5 : Core.Keeps F c c5 := ite (fun _ => yieldPromise h4 (hF _ (.inr (.inr (.inr (.inr (by simp only [entKey]; omega)))))))
      (fun _ => h4)
    exact oobState (guardDeepen (setCdb h5 (hb (by omega) (by omega))) hg) (hb (by omega) (by omega))
  · have h2 : Core.Keeps F c c2' := ite (fun _ => breachRecord h1) (fun _ => h1)
    have h3 : Core.Keeps F c c3' := modGuardPath h2
    exact ite (fun _ => oobState (guardApply (setCdb h3 (hb (by omega) (by omega))) hg) (hb (by omega) (by omega)))
      (fun _ => oobState h3 (hb (by omega) (by omega)))
end

theorem provingSample (h : Core.Keeps F c d) {k : Nat} {l : Int} : Core.Keeps F c (d.provingSample k l) := by
  unfold Core.provingSample
  extract_lets t
  split
  · exact upd h rfl rfl rfl rfl rfl rfl rfl rfl
  · exact ite (fun _ => h) (fun _ => upd h rfl rfl rfl rfl rfl rfl rfl rfl)

theorem oobCheck {k : Nat} {m : List OobMeasurement} :
    Core.Keeps (fun x => footFabric x ∨ x = entKey (0x3110 + k) 5 ∨ x = entKey (0x3110 + k) 6) c (c.oobCheck k m) := by
  unfold Core.oobCheck
  extract_lets rfin ready
  refine each (setEntBit refl (.inl (fabric_node (by simp [footNode])))) (fun p e hp => ?_)
  have hp' : p < 32 := by simp only [Core.checked, List.mem_filter] at hp; exact mem_allPaths hp.1
  extract_lets c1
  have h1 : Core.Keeps (fun x => footFabric x ∨ x = entKey (0x3110 + k) 5 ∨ x = entKey (0x3110 + k) 6) e c1 :=
    wrapAdd refl (by simp)
  have nv : ∀ e' : Core, Core.Keeps (fun x => footFabric x ∨ x = entKey (0x3110 + k) 5 ∨ x = entKey (0x3110 + k) 6) e e' →
      Core.Keeps (fun x => footFabric x ∨ x = entKey (0x3110 + k) 5 ∨ x = entKey (0x3110 + k) 6) e (e'.oobNoValue k p) :=
    fun e' he => by
      unfold Core.oobNoValue
      extract_lets c1
      exact modGuardPath (setPe (setPe (count he (.inr (.inr rfl))) (.inl (block hp' (by omega) (by omega))))
        (.inl (block hp' (by omega) (by omega))))
  split
  · extract_lets c2
    have h2 : Core.Keeps (fun x => footFabric x ∨ x = entKey (0x3110 + k) 5 ∨ x = entKey (0x3110 + k) 6) e c2 :=
      ite (fun _ => provingSample h1) (fun _ => h1)
    exact ite (fun _ => oobValue hp' (fun k hk => .inl hk) h2) (fun _ => nv _ h2)
  · exact nv _ h1

theorem netAssert :
    Core.Keeps (fun k => footNode k ∨ k = entKey 0x3103 3 ∨ k = entKey 0x3103 4) c c.netAssert := by
  unfold Core.netAssert
  extract_lets act c1 src c2
  have h1 : Core.Keeps (fun k => footNode k ∨ k = entKey 0x3103 3 ∨ k = entKey 0x3103 4) c c1 :=
    emit (setEntBit (count (setEnt refl (by simp)) (by simp)) (.inl (by simp [footNode])))
  have h2 : Core.Keeps (fun k => footNode k ∨ k = entKey 0x3103 3 ∨ k = entKey 0x3103 4) c c2 := upd h1 rfl rfl rfl rfl rfl rfl rfl rfl
  exact ite (fun _ => guardLatch h2 (fun k hk => .inl hk))
    (fun _ => recompute (nodeYield (guardNode h2 (fun k hk => .inl hk)) (fun k hk => .inl hk)) (fun k hk => .inl (.inl hk)))

theorem lineStop {v a t : Nat} :
    Core.Keeps (fun k => footNode k ∨ (entKey 0x3104 2 ≤ k ∧ k ≤ entKey 0x3104 4)) c (c.lineStop v a t) := by
  unfold Core.lineStop
  extract_lets c1 c2 since g c3
  have h2 : Core.Keeps (fun k => footNode k ∨ (entKey 0x3104 2 ≤ k ∧ k ≤ entKey 0x3104 4)) c c2 :=
    emit (setEntBit (setEnt (setEnt (setEnt refl (by simp only [entKey]; omega)) (by simp only [entKey]; omega))
      (by simp only [entKey]; omega)) (.inl (by simp [footNode])))
  have hm : ∀ k, footMode k → footNode k ∨ (entKey 0x3104 2 ≤ k ∧ k ≤ entKey 0x3104 4) := fun k hk => .inl (.inl hk)
  have h3 : Core.Keeps (fun k => footNode k ∨ (entKey 0x3104 2 ≤ k ∧ k ≤ entKey 0x3104 4)) c c3 :=
    upd h2 rfl rfl rfl rfl rfl rfl rfl rfl
  refine ite (fun _ => recompute (guardSend h3) hm) (fun _ => ?_)
  exact ite (fun _ => recompute (nodeYield (guardNode h3 (fun k hk => .inl hk)) (fun k hk => .inl hk)) hm)
    (fun _ => guardLatch h3 (fun k hk => .inl hk))

end Sys2Proof.Machine.Keeps
end

