-- ==== Sys2Proof/Laws/ModeFrames.lean ====
section
/-! SUPPORT. What changes of time status, frame timing, role, pair state and mode leave alone. -/

set_option Elab.async false

namespace Sys2Proof.Machine.Keeps
variable {F : Nat → Prop} {c d : Core}

theorem refreshRunning (h : Core.Keeps F c d) (hk : F (entKey 0x3200 0)) : Core.Keeps F c d.refreshRunning := by
  unfold Core.refreshRunning
  extract_lets r c1
  exact ite (fun _ => h) (fun _ => upd (setEntBit (k := 0) (b := r) h hk) rfl rfl rfl rfl rfl rfl rfl rfl)

theorem refreshTdd (h : Core.Keeps F c d) (hF : ∀ k, footFrame k → F k) : Core.Keeps F c d.refreshTdd :=
  each h (fun p e hp => by
    have hp := mem_allPaths hp
    refine ite (fun _ => refl) (fun _ => refreshPath (setPe refl (hF _ (.inr (.inl
      (onPaths_key _ hp (by omega) (by omega) (by simp)))))) (fun k hk => hF k (.inl (footMode_path hp hk)))))

theorem setFrameState (h : Core.Keeps F c d) {n : Nat} (hF : ∀ k, footFrame k → F k) : Core.Keeps F c (d.setFrameState n) := by
  have f0 : F (entKey 0x3200 0) := hF _ (by simp [footFrame])
  unfold Core.setFrameState
  extract_lets old c1 c2 x c3
  refine ite (fun _ => h) (fun _ => ?_)
  have h2 : Core.Keeps F c c2 := setEntBit (setEntBit (setEntBit (emit (setEnt h (hF _ (by simp [footFrame])))) f0) f0) f0
  have h3 : Core.Keeps F c c3 := by
    refine ite (fun _ => ?_) (fun _ => ite (fun _ => ?_) (fun _ => upd h2 rfl rfl rfl rfl rfl rfl rfl rfl))
    · exact each (by exact upd h2 rfl rfl rfl rfl rfl rfl rfl rfl) (fun _ _ _ => modPath refl)
    · exact each (by exact upd h2 rfl rfl rfl rfl rfl rfl rfl rfl) (fun _ _ _ => modPath refl)
  exact refreshTdd (refreshRunning h3 f0) hF

theorem followTime (h : Core.Keeps F c d) (hF : ∀ k, footFrame k → F k) : Core.Keeps F c d.followTime := by
  have f0 : F (entKey 0x3200 0) := hF _ (by simp [footFrame])
  unfold Core.followTime
  extract_lets src x c0 st
  have h0 : Core.Keeps F c c0 := upd h rfl rfl rfl rfl rfl rfl rfl rfl
  refine ite (fun _ => refreshRunning (setFrameState h hF) f0) (fun _ => ite (fun _ => ?_) (fun _ => ?_))
  · refine ite (fun _ => setFrameState h0 hF) (fun _ => ite (fun _ => ?_) (fun _ => ?_))
    · exact ite (fun _ => h0) (fun _ => setFrameState h0 hF)
    · exact ite (fun _ => setFrameState h0 hF) (fun _ => setFrameState h0 hF)
  · exact ite (fun _ => setFrameState h hF) (fun _ => refreshRunning h f0)

theorem setTime (h : Core.Keeps F c d) {a b : Nat} (hF : ∀ k, footTime k → F k) : Core.Keeps F c (d.setTime a b) := by
  unfold Core.setTime
  extract_lets old c1 src c2
  refine ite (fun _ => h) (fun _ => followTime ?_ (fun k hk => hF k (.inl hk)))
  exact upd (emit (setEnt (setEnt h (hF _ (by simp [footTime]))) (hF _ (by simp [footTime]))) (s := 1) (x := 0x0205)
    (l := d8 old ++ d8 a ++ d8 b)) rfl rfl rfl rfl rfl rfl rfl rfl

theorem setPair (h : Core.Keeps F c d) {n : Nat} (hF : ∀ k, footTwin k → F k) : Core.Keeps F c (d.setPair n) := by
  unfold Core.setPair
  extract_lets old r c1 c2
  refine ite (fun _ => h) (fun _ => ?_)
  have h1 : Core.Keeps F c c1 := setEntBit (emit (setEnt (draw h) (hF _ (by simp [footTwin])))) (hF _ (by simp [footTwin]))
  have h2 : Core.Keeps F c c2 := ite (fun _ => setEnt h1 (hF _ (by simp [footTwin]))) (fun _ => h1)
  exact upd h2 rfl rfl rfl rfl rfl rfl rfl rfl

theorem exitStep (h : Core.Keeps F c d) (hF : ∀ k, footTwin k → F k) : Core.Keeps F c d.exitStep := by
  unfold Core.exitStep
  exact ite (fun _ => setPair h hF) (fun _ => h)

theorem setRole (h : Core.Keeps F c d) {n x : Nat} (hF : ∀ k, footTwin k → F k) : Core.Keeps F c (d.setRole n x) := by
  unfold Core.setRole
  extract_lets old e c1
  refine ite (fun _ => h) (fun _ => ?_)
  have h1 : Core.Keeps F c c1 := ite (fun _ => setEnt h (hF _ (by simp [footTwin]))) (fun _ => h)
  exact emit (setEnt h1 (hF _ (by simp [footTwin])))

theorem modTwin (h : Core.Keeps F c d) {f : TwinSt → TwinSt} : Core.Keeps F c (d.modTwin f) := upd h rfl rfl rfl rfl rfl rfl rfl rfl

theorem refreshForced (h : Core.Keeps F c d) (hF : ∀ k, footTwin k → F k) : Core.Keeps F c d.refreshForced :=
  setEntBit h (hF _ (by simp [footTwin]))

theorem withdraw (h : Core.Keeps F c d) {x : Nat} (hF : ∀ k, footTwin k → F k) : Core.Keeps F c (d.withdraw x) := by
  unfold Core.withdraw
  extract_lets y c1
  refine ite (fun _ => h) (fun _ => exitStep (twinSend ?_) hF)
  exact upd (setEnt (v := x) h (hF _ (by simp [footTwin]))) rfl rfl rfl rfl rfl rfl rfl rfl

theorem restoreToken (h : Core.Keeps F c d) {x : Nat} (hF : ∀ k, footTwin k → F k) : Core.Keeps F c (d.restoreToken x) := by
  unfold Core.restoreToken
  exact ite (fun _ => upd (setEnt (v := 0) h (hF (entKey 0x5008 0) (by simp [footTwin]))) rfl rfl rfl rfl rfl rfl rfl rfl) (fun _ => h)

theorem standBy (h : Core.Keeps F c d) {x : Nat} (hF : ∀ k, footTwin k → F k) : Core.Keeps F c (d.standBy x) :=
  refreshForced (setRole (modTwin h) hF) hF

theorem claim (h : Core.Keeps F c d) {x : Nat} (hF : ∀ k, footTwin k → F k) : Core.Keeps F c (d.claim x) :=
  refreshForced (setRole (modTwin h) hF) hF

theorem claimNow (h : Core.Keeps F c d) {x : Nat} (hF : ∀ k, footTwin k → F k) : Core.Keeps F c (d.claimNow x) :=
  modTwin (claim h hF)

theorem twinStart (h : Core.Keeps F c d) (hF : ∀ k, footTwin k → F k) : Core.Keeps F c d.twinStart := by
  unfold Core.twinStart
  extract_lets c1
  exact ite (fun _ => h) (fun _ => ite (fun _ => setPair (standBy (modTwin (modTwin h)) hF) hF) (fun _ => modTwin h))

theorem setTwc (h : Core.Keeps F c d) {n : Nat} {t : TwSt} : Core.Keeps F c (d.setTwc n t) := upd h rfl rfl rfl rfl rfl rfl rfl rfl

section
variable {n : Nat} (hn : n < 4) (hF : ∀ k, footTwoWire k → F k)
include hn hF

theorem twKey {sub : Nat} (hs : sub < 256) : F (entKey (0x6320 + n) sub) ∧ F (entKey (0x6310 + n) sub) :=
  ⟨hF _ (by simp only [footTwoWire, entKey]; omega), hF _ (by simp only [footTwoWire, entKey]; omega)⟩

theorem setTwState (h : Core.Keeps F c d) {v : Nat} : Core.Keeps F c (d.setTwState n v) :=
  setEnt h (twKey hn hF (by omega)).1

theorem twFlag (h : Core.Keeps F c d) {k : Nat} {b : Bool} : Core.Keeps F c (d.twFlag n k b) :=
  setEntBit h (twKey hn hF (by omega)).1

theorem twFail (h : Core.Keeps F c d) {r : Nat} {i : TwItem} : Core.Keeps F c (d.twFail n r i) := by
  unfold Core.twFail
  extract_lets c0
  have h0 : Core.Keeps F c c0 := ite (fun _ => count h (twKey hn hF (by omega)).1) (fun _ => h)
  cases i with
  | host => exact setEnt (setEnt h0 (twKey hn hF (by omega)).2) (twKey hn hF (by omega)).2
  | slot s a r' l => exact firstInSecond (count h0 (twKey hn hF (by omega)).1)

theorem twFlush (h : Core.Keeps F c d) {r : Nat} : Core.Keeps F c (d.twFlush n r) :=
  foldl _ (setTwc h) (fun _ _ _ => twFail hn hF refl)

theorem twApply (h : Core.Keeps F c d) : Core.Keeps F c (d.twApply n) := by
  unfold Core.twApply
  extract_lets t want c1
  refine ite (fun _ => h) (fun _ => ite (fun _ => setTwc h) (fun _ => ite (fun _ => ?_) (fun _ => ?_)))
  · exact setTwState hn hF (setTwc (setTwc h))
  · exact twFlush hn hF (setTwState hn hF (setTwc h))

theorem twServe (h : Core.Keeps F c d) : Core.Keeps F c (d.twServe n) := by
  unfold Core.twServe
  extract_lets t
  split
  · exact ite (fun _ => h) (fun _ => twFlush hn hF h)
  · exact ite (fun _ => h) (fun _ => twFlush hn hF h)
  · exact ite (fun _ => h) (fun _ => twFlush hn hF h)
  · refine ite (fun _ => h) (fun _ => ?_)
    split
    · exact h
    · exact setTwState hn hF (setTwc h)
  · exact h

end

theorem resumeGuard (h : Core.Keeps F c d) : Core.Keeps F c d.resumeGuard := by
  unfold Core.resumeGuard
  split
  · exact h
  · extract_lets x y c1 c2
    have h1 : Core.Keeps F c c1 := each h (fun _ _ _ => modGuardPath refl)
    have h2 : Core.Keeps F c c2 := each h1 (fun _ e _ => by
      show Core.Keeps F e ((Core.setRfin _ _ _).setRefl _ _)
      exact setRefl (setRfin refl))
    clear_value c2
    exact upd h2 rfl rfl rfl rfl rfl rfl rfl rfl

theorem restart (h : Core.Keeps F c d)
    (hF : ∀ k, footMode k ∨ k = entKey 0x1101 0 ∨ k = entKey 0x3007 0 ∨ k = entKey 0x110C 0 → F k) :
    Core.Keeps F c d.restart := by
  unfold Core.restart
  extract_lets owed src c1 c2
  have h1 : Core.Keeps F c c1 := upd (persistUnit (l := [(0, 0)]) h) rfl rfl rfl rfl rfl rfl rfl rfl
  have h2 : Core.Keeps F c c2 := ite (fun _ => h1) (fun _ => persistUnit (setEnt (setEnt h1 (hF _ (by simp))) (hF _ (by simp))))
  exact recompute (setEnt (resumeGuard h2) (hF _ (by simp))) (fun k hk => hF k (.inl hk))

theorem lockLost :
    Core.Keeps (fun k => footTime k ∨ footTwin k ∨ k = entKey 0x1201 0 ∨ k = entKey 0x1202 0 ∨ k = entKey 0x5100 0) c
      c.lockLost := by
  unfold Core.lockLost
  extract_lets r c1 s1 s2 c2 c3
  have h1 : Core.Keeps (fun k => footTime k ∨ footTwin k ∨ k = entKey 0x1201 0 ∨ k = entKey 0x1202 0 ∨ k = entKey 0x5100 0) c c1 :=
    count (setEntBit (setEntBit (draw refl) (by simp)) (by simp)) (by simp)
  have h2 : Core.Keeps (fun k => footTime k ∨ footTwin k ∨ k = entKey 0x1201 0 ∨ k = entKey 0x1202 0 ∨ k = entKey 0x5100 0) c c2 :=
    upd (emit (s := 1) (x := 0x0201) (l := []) h1) rfl rfl rfl rfl rfl rfl rfl rfl
  have h3 : Core.Keeps (fun k => footTime k ∨ footTwin k ∨ k = entKey 0x1201 0 ∨ k = entKey 0x1202 0 ∨ k = entKey 0x5100 0) c c3 :=
    setTime (setEntBit h2 (by simp)) (fun k hk => .inl hk)
  exact refreshPaths (withdraw h3 (fun k hk => .inr (.inl hk))) (fun p k hp hk => .inl (.inl (.inl (footMode_path hp hk))))

theorem relocked : Core.Keeps (fun k => footTime k ∨ footTwin k ∨ k = entKey 0x1201 0) c c.relocked :=
  refreshPaths (restoreToken (setTime (emit (setEntBit (setEntBit refl (by simp)) (by simp))) (fun k hk => .inl hk))
    (fun k hk => .inr (.inl hk))) (fun p k hp hk => .inl (.inl (.inl (footMode_path hp hk))))

/-- DEPOT ready moves the phase too: what it does from there. -/
theorem countFromReady (h : Core.Keeps F c d) : Core.Keeps F c d.countFromReady := by
  unfold Core.countFromReady
  extract_lets again c1 c2
  have h1 : Core.Keeps F c c1 := each h (fun _ _ _ => modGuardPath refl)
  have h2 : Core.Keeps F c c2 := each h1 (fun _ e _ => by
    show Core.Keeps F e (Core.setRefl _ _ _)
    exact setRefl refl)
  clear_value c2
  exact upd h2 rfl rfl rfl rfl rfl rfl rfl rfl

theorem depotReady :
    Core.Keeps (fun k => footMode k ∨ k = entKey 0x1101 0 ∨ k = entKey 0x1106 0 ∨ footTwin k ∨ footTwoWire k)
      { c with phase := .ready, since := c.now } c.depotReady := by
  unfold Core.depotReady
  extract_lets c1 start wh c2 base c3
  have h1 : Core.Keeps (fun k => footMode k ∨ k = entKey 0x1101 0 ∨ k = entKey 0x1106 0 ∨ footTwin k ∨ footTwoWire k)
      { c with phase := .ready, since := c.now } c1 := emit (irq (countFromReady refl) (.inl (by simp [footMode])))
  have h2 : Core.Keeps (fun k => footMode k ∨ k = entKey 0x1101 0 ∨ k = entKey 0x1106 0 ∨ footTwin k ∨ footTwoWire k)
      { c with phase := .ready, since := c.now } c2 := setEntBit h1 (by simp)
  have h3 : Core.Keeps (fun k => footMode k ∨ k = entKey 0x1101 0 ∨ k = entKey 0x1106 0 ∨ footTwin k ∨ footTwoWire k)
      { c with phase := .ready, since := c.now } c3 := each h2 (fun n e hn => setTwc (twApply
        (by simp at hn; omega) (fun k hk => .inr (.inr (.inr (.inr hk)))) refl))
  exact recompute (twinStart (refreshConverters (setEnt h3 (by simp)) (fun n hn => ⟨.inl (by simp only [footMode, entKey]; omega),
      .inl (by simp only [footMode, entKey]; omega)⟩)) (fun k hk => .inr (.inr (.inr (.inl hk))))) (fun k hk => .inl hk)

end Sys2Proof.Machine.Keeps
end

