-- ==== Sys2Proof/Laws/CommitFrames.lean ====
section
/-! SUPPORT. Putting a configuration in force moves no STAGED entry beside those it writes (R14, R318). -/

set_option Elab.async false

namespace Sys2Proof.Machine

/-- The entries that are not STAGED. -/
abbrev unstaged (k : Nat) : Prop := stagedKey k = false

/-- An entry none of whose rows is STAGED. -/
theorem unstaged_row {i sub : Nat} (hs : sub < 256) (h : ∀ r, r ∈ rowsFor (canon i).1 → r.index = (canon i).1 → r.lo ≤ sub →
    sub ≤ r.hi → r.staged = false) : unstaged (entKey i sub) := by
  have e1 : entKey i sub / 256 = i := by simp only [entKey]; omega
  have e2 : entKey i sub % 256 = sub := by simp only [entKey]; omega
  unfold unstaged stagedKey
  rw [e1, e2]
  unfold rowOf
  extract_lets c
  cases hf : (rowsFor c.1).find? (fun r => r.index = c.1 && r.lo ≤ sub && sub ≤ r.hi) with
  | none => rfl
  | some r =>
    have hm := List.mem_of_find?_eq_some hf
    have hp := List.find?_some hf
    simp only [Bool.and_eq_true, decide_eq_true_eq] at hp
    have hr : r.staged = false := h r hm hp.1.1 hp.1.2 hp.2
    simp only []
    split
    · split
      · rfl
      · split <;> simp [hr]
    · split <;> simp [hr]

/-- The status entries of a path's block, as offset × 256 + subindex. -/
def pathStatusKeys : List Nat := [0x101, 0x102, 0x103, 0x104, 0x105, 0x106, 0x107, 0x108, 0x202, 0x203, 0x204, 0x205, 0x802, 0x803, 0x804, 0x805, 0x806, 0x901, 0x903, 0x904, 0xB03, 0x1101, 0x1201, 0x1301, 0x1401, 0x1805, 0x1806, 0x1907, 0x1A01, 0x1A02, 0x1A03, 0x1A04, 0x1A05, 0x1A06, 0x1B04, 0x1B05, 0x1C01, 0x1C05, 0x1C06, 0x1C07, 0x2004, 0x2304, 0x2305, 0x2401, 0x2402, 0x2403, 0x2802]

theorem unstaged_rowsPath : ∀ x, x ∈ pathStatusKeys → ∀ r, r ∈ rowsPath → r.index = 0x2000 + x / 256 → r.lo ≤ x % 256 →
    x % 256 ≤ r.hi → r.staged = false := by
  decide +kernel

theorem canon_pIdx {p off : Nat} (hp : p < 32) (ho : off < 64) : canon (pIdx p off) = (0x2000 + off, p) := by
  unfold canon pIdx
  rw [if_pos (by omega)]
  exact Prod.ext (by show 0x2000 + _ = _; omega) (by show (_ - _) / _ = _; omega)

theorem unstaged_at {p off sub : Nat} (hp : p < 32) (ho : off < 64 := by omega) (hs : sub < 256 := by omega)
    (h : off * 256 + sub ∈ pathStatusKeys := by simp [pathStatusKeys]) : unstaged (entKey (pIdx p off) sub) := by
  refine unstaged_row hs ?_
  rw [canon_pIdx hp ho]
  have e : rowsFor (0x2000 + off, p).1 = rowsPath := by
    show rowsFor (0x2000 + off) = rowsPath
    unfold rowsFor
    rw [if_neg (by omega), if_pos (by omega)]
  rw [e]
  intro r hr hi h1 h2
  have hq := unstaged_rowsPath _ h r hr
  have e1 : (off * 256 + sub) / 256 = off := by omega
  have e2 : (off * 256 + sub) % 256 = sub := by omega
  rw [e1, e2] at hq
  exact hq hi h1 h2

theorem unstaged_on {l : List Nat} {k : Nat} (h : onPaths l k) (hl : ∀ x, x ∈ l → x ∈ pathStatusKeys) : unstaged k := by
  obtain ⟨h1, h2, h3⟩ := h
  have e : k = entKey (pIdx ((k - 0x200000) / 0x4000) (k % 0x4000 / 256)) (k % 256) := by simp only [entKey, pIdx]; omega
  have hm := hl _ h3
  rw [e]
  refine unstaged_at (by omega) (by omega) (by omega) ?_
  have : k % 0x4000 / 256 * 256 + k % 256 = k % 0x4000 := by omega
  rw [this]
  exact hm

theorem unstaged_slot {n off sub : Nat} (hn : n < 96) (ho : off < 8) (hs : sub < 256)
    (h : (off = 4 ∧ 1 ≤ sub ∧ sub ≤ 5) ∨ (64 ≤ n ∧ off = 0)) : unstaged (entKey (sIdx n off) sub) := by
  have hc : canon (sIdx n off) = (0x4000 + off, n) := by
    unfold canon sIdx
    rw [if_neg (by omega), if_pos (by omega)]
    exact Prod.ext (by show 0x4000 + _ = _; omega) (by show (_ - _) / _ = _; omega)
  rcases h with ⟨rfl, h1, h2⟩ | ⟨h64, rfl⟩
  · refine unstaged_row hs ?_
    rw [hc]
    have d : ∀ r, r ∈ rowsFor 0x4004 → r.index = 0x4004 → r.staged = false := by decide +kernel
    exact fun r hr hi _ _ => d r hr hi
  · have e1 : entKey (sIdx n 0) sub / 256 = sIdx n 0 := by simp only [entKey]; omega
    have e2 : entKey (sIdx n 0) sub % 256 = sub := by simp only [entKey]; omega
    unfold unstaged stagedKey
    rw [e1, e2]
    unfold rowOf
    rw [hc]
    extract_lets c
    cases hf : (rowsFor c.1).find? (fun r => r.index = c.1 && r.lo ≤ sub && sub ≤ r.hi) with
    | none => rfl
    | some r =>
      simp only []
      rw [if_neg (by show ¬ (0x4000 + 0 = 0x6300 ∧ _); omega), if_pos (by
        refine ⟨?_, ?_, h64⟩ <;> simp only [sIdx] <;> omega)]
      rfl

theorem unstaged_status : ∀ k, k ∈ [(0x110A, 0), (0x1100, 0), (0x1101, 0), (0x1102, 0), (0x1109, 0), (0x1134, 0), (0x110C, 0), (0x3200, 0),
    (0x3202, 0), (0x1221, 0), (0x1222, 0), (0x5000, 0), (0x5001, 0), (0x5002, 0), (0x5003, 0), (0x5008, 0), (0x5040, 2),
    (0x3180, 5), (0x280A, 0), (0x280B, 0), (0x2808, 0), (0x3210, 2), (0x3006, 0), (0x3007, 0), (0x3000, 0), (0x3001, 0),
    (0x4382, 0), (0x4383, 0), (0x1241, 0), (0x1242, 0), (0x1243, 0), (0x4380, 0), (0x4385, 0), (0x5100, 0), (0x5102, 0),
    (0x5103, 1), (0x5103, 2), (0x5103, 3), (0x5103, 4), (0x5103, 5), (0x5140, 1), (0x5140, 2), (0x5140, 3),
    (0x3250, 8), (0x3251, 8), (0x1104, 2), (0x1104, 5), (0x3100, 0), (0x3101, 0), (0x1103, 2), (0x1103, 3)] → unstaged (entKey k.1 k.2) := by
  decide +kernel

theorem unstaged_many : ∀ e, e ∈ [(0x2803, 1, 0, [1, 2, 3, 4, 5, 6, 7, 8]), (0x2804, 1, 0, [1, 2, 3, 4, 5, 6, 7, 8]), (0x3220, 32, 1, [7]),
    (0x3240, 4, 1, [6]), (0x3250, 2, 1, [8, 9]), (0x3260, 2, 1, [4]), (0x2A10, 4, 1, [9, 10, 11, 12]),
    (0x4801, 2, 16, [1, 3, 4, 5, 7]), (0x5110, 3, 1, [3, 6, 8, 9, 13, 14])] →
    ∀ n, n < e.2.1 → ∀ s, s ∈ e.2.2.2 → unstaged (entKey (e.1 + n * e.2.2.1) s) := by
  decide +kernel

theorem unstaged_blocks {n : Nat} (hn : n < 64) : unstaged (entKey 0x3002 (n + 1)) :=
  unstaged_row (by omega) (fun r hr hi _ _ => (by decide +kernel : ∀ r, r ∈ rowsFor (canon 0x3002).1 → r.index = (canon 0x3002).1 →
    r.staged = false) r hr hi)

theorem unstaged_wire (k : Nat) (h : footTwoWire k) : unstaged k := by
  have d : ∀ n, n < 20 → ∀ r, r ∈ rowsFor (canon (0x6310 + n)).1 → r.index = (canon (0x6310 + n)).1 → r.staged = false := by
    decide +kernel
  obtain ⟨h1, h2⟩ := h
  simp only [entKey] at h1 h2
  have e : k = entKey (0x6310 + (k / 256 - 0x6310)) (k % 256) := by simp only [entKey]; omega
  rw [e]
  exact unstaged_row (by omega) (fun r hr hi _ _ => d _ (by omega) r hr hi)

/-- A numbered status entry. -/
theorem unstaged_key {i sub : Nat} (h : (i, sub) ∈ [(0x110A, 0), (0x1100, 0), (0x1101, 0), (0x1102, 0), (0x1109, 0), (0x1134, 0),
    (0x110C, 0), (0x3200, 0), (0x3202, 0), (0x1221, 0), (0x1222, 0), (0x5000, 0), (0x5001, 0), (0x5002, 0), (0x5003, 0),
    (0x5008, 0), (0x5040, 2), (0x3180, 5), (0x280A, 0), (0x280B, 0), (0x2808, 0), (0x3210, 2), (0x3006, 0), (0x3007, 0),
    (0x3000, 0), (0x3001, 0), (0x4382, 0), (0x4383, 0), (0x1241, 0), (0x1242, 0), (0x1243, 0), (0x4380, 0), (0x4385, 0),
    (0x5100, 0), (0x5102, 0), (0x5103, 1), (0x5103, 2), (0x5103, 3), (0x5103, 4), (0x5103, 5), (0x5140, 1), (0x5140, 2),
    (0x5140, 3), (0x3250, 8), (0x3251, 8), (0x1104, 2), (0x1104, 5), (0x3100, 0), (0x3101, 0), (0x1103, 2), (0x1103, 3)] := by simp) : unstaged (entKey i sub) :=
  unstaged_status (i, sub) h

theorem unstaged_cv {tx : Bool} {n : Nat} (hn : n < 8) : unstaged (entKey (if tx then 0x2804 else 0x2803) (n + 1)) := by
  cases tx
  · exact unstaged_many (0x2803, 1, 0, [1, 2, 3, 4, 5, 6, 7, 8]) (by simp) 0 (by simp) (n + 1) ((by decide : ∀ n, n < 8 → n + 1 ∈ [1, 2, 3, 4, 5, 6, 7, 8]) n hn)
  · exact unstaged_many (0x2804, 1, 0, [1, 2, 3, 4, 5, 6, 7, 8]) (by simp) 0 (by simp) (n + 1) ((by decide : ∀ n, n < 8 → n + 1 ∈ [1, 2, 3, 4, 5, 6, 7, 8]) n hn)

theorem unstaged_path {p k : Nat} (hp : p < 32) (h : footPath p k) : unstaged k := by
  rcases h with rfl | rfl | rfl | rfl | rfl
  · exact unstaged_at hp
  · exact unstaged_at hp
  · exact unstaged_at hp
  · exact unstaged_at hp
  · exact unstaged_key

theorem unstaged_sweep {p k : Nat} (hp : p < 32) (h : footSweep p k) : unstaged k := by
  rcases h with rfl | rfl <;> exact unstaged_at hp

theorem unstaged_mode {k : Nat} (h : footMode k) : unstaged k := by
  rcases h with h | rfl | rfl | rfl | rfl | rfl | h | h
  · exact unstaged_on h (by simp [pathStatusKeys])
  iterate 5 exact unstaged_key
  · obtain ⟨h1, h2⟩ := h
    simp only [entKey] at h1 h2
    have e : k = entKey (if false then 0x2804 else 0x2803) ((k - 0x280301) + 1) := by simp only [entKey]; simp; omega
    rw [e]; exact unstaged_cv (by omega)
  · obtain ⟨h1, h2⟩ := h
    simp only [entKey] at h1 h2
    have e : k = entKey (if true then 0x2804 else 0x2803) ((k - 0x280401) + 1) := by simp only [entKey]; simp; omega
    rw [e]; exact unstaged_cv (by omega)

theorem unstaged_guard {p k : Nat} (hp : p < 32) (h : footGuard p k) : unstaged k := by
  rcases h with h | h | rfl | rfl | rfl | rfl | rfl | rfl | rfl
  · exact unstaged_path hp h
  · exact unstaged_sweep hp h
  iterate 5 exact unstaged_at hp
  iterate 2 exact unstaged_key

theorem unstaged_node {k : Nat} (h : footNode k) : unstaged k := by
  rcases h with h | rfl | rfl | rfl | rfl | rfl
  · exact unstaged_mode h
  iterate 5 exact unstaged_key

theorem unstaged_points {k : Nat} (h : footPoints k) : unstaged k := by
  rcases h with rfl | rfl | rfl <;> exact unstaged_key

theorem unstaged_frame {k : Nat} (h : footFrame k) : unstaged k := by
  rcases h with h | h | rfl | rfl
  · exact unstaged_mode h
  · exact unstaged_on h (by simp [pathStatusKeys])
  iterate 2 exact unstaged_key

theorem unstaged_time {k : Nat} (h : footTime k) : unstaged k := by
  rcases h with h | rfl | rfl
  · exact unstaged_frame h
  iterate 2 exact unstaged_key

theorem unstaged_twin {k : Nat} (h : footTwin k) : unstaged k := by
  rcases h with rfl | rfl | rfl | rfl | rfl | rfl <;> exact unstaged_key

theorem unstaged_reset {p k : Nat} (hp : p < 32) (h : footReset p k) : unstaged k := by
  rcases h with h | rfl | rfl | rfl
  · exact unstaged_path hp h
  iterate 3 exact unstaged_at hp

namespace Keeps
variable {c d : Core} {F : Nat → Prop}

theorem commitWindows (h : Core.Keeps unstaged c d) {old : Cfg} {p : Nat} (hp : p < 32) :
    Core.Keeps unstaged c (d.commitWindows old p) := by
  unfold Core.commitWindows
  extract_lets c1
  have h1 : Core.Keeps unstaged c c1 := ite (fun _ => h) (fun _ => foldl _ h (fun x e hx => setPe refl (by
    have d : ∀ x, x ∈ pathLevels → x.1 < 64 ∧ x.2 < 256 ∧ x.1 * 256 + x.2 ∈ pathStatusKeys := by decide
    exact unstaged_at hp (d x hx).1 (d x hx).2.1 (d x hx).2.2)))
  exact ite (fun _ => h1) (fun _ => modPath h1)

theorem guardCommit (h : Core.Keeps unstaged c d) : Core.Keeps unstaged c d.guardCommit := by
  unfold Core.guardCommit
  extract_lets c1
  have h1 : Core.Keeps unstaged c c1 := each h (fun k e _ => ite (fun _ => refl) (fun _ => setEntBit refl unstaged_key))
  refine refreshNode (each h1 (fun p e hp => ite (fun _ => refl) (fun _ => ?_))) (fun _ => unstaged_node)
  have hp := mem_allPaths hp
  exact modGuardPath (setPe (setPe refl (unstaged_at hp)) (unstaged_at hp))

theorem invalidate (h : Core.Keeps F c d) {p x : Nat} (hk : F (entKey (pIdx p 9) 1)) : Core.Keeps F c (d.invalidate p x) := by
  unfold Core.invalidate
  exact ite (fun _ => h) (fun _ => setPe (modPath h) hk)

theorem refreshNco (h : Core.Keeps unstaged c d) {p : Nat} (hp : p < 32) : Core.Keeps unstaged c (d.refreshNco p) := by
  unfold Core.refreshNco
  extract_lets g hz rx tx c1
  have h1 : Core.Keeps unstaged c c1 := setPe (setPe (setPe (setPe h (unstaged_at hp)) (unstaged_at hp)) (unstaged_at hp)) (unstaged_at hp)
  exact ite (fun _ => h1) (fun _ => invalidate h1 (unstaged_at hp))

theorem pathStatus (h : Core.Keeps unstaged c d) {p : Nat} (hp : p < 32) : Core.Keeps unstaged c (d.pathStatus p) := by
  unfold Core.pathStatus
  extract_lets g id c1 c2
  have h1 : Core.Keeps unstaged c c1 := setPe (setPe (setPe (setPe (setPe h (unstaged_at hp)) (unstaged_at hp)) (unstaged_at hp))
    (unstaged_at hp)) (unstaged_at hp)
  have h2 : Core.Keeps unstaged c c2 := setPe (setPe h1 (unstaged_at hp)) (unstaged_at hp)
  exact refreshNco (setPe h2 (unstaged_at hp)) hp

theorem commitResets (h : Core.Keeps unstaged c d) {old : Cfg} {p : Nat} (hp : p < 32) :
    Core.Keeps unstaged c (d.commitResets old p) := by
  have order : ∀ {e : Core} {x t : Nat}, Core.Keeps unstaged c e → Core.Keeps unstaged c (e.orderReset p x t) :=
    fun he => orderReset he (fun k hk => unstaged_reset hp hk)
  unfold Core.commitResets
  extract_lets g c1 c2
  have h1 : Core.Keeps unstaged c c1 := ite (fun _ => order h) (fun _ => ite (fun _ => order h) (fun _ => h))
  have h2 : Core.Keeps unstaged c c2 := ite (fun _ => order h1) (fun _ => h1)
  exact ite (fun _ => h) (fun _ => ite (fun _ => order h) (fun _ => ite (fun _ => invalidate h2 (unstaged_at hp)) (fun _ => h2)))

theorem commitRecords (h : Core.Keeps F c d) {old : Cfg} {p : Nat} : Core.Keeps F c (d.commitRecords old p) := by
  unfold Core.commitRecords
  extract_lets g c1 probe c2
  have h1 : Core.Keeps F c c1 := ite (fun _ => emit h) (fun _ => h)
  have h2 : Core.Keeps F c c2 := ite (fun _ => emit h1) (fun _ => h1)
  exact ite (fun _ => h1) (fun _ => ite (fun _ => emit h2) (fun _ => h2))

theorem setCoex (h : Core.Keeps F c d) {k : Nat} {x : CoexSt} : Core.Keeps F c (d.setCoex k x) := upd h rfl rfl rfl rfl rfl rfl rfl rfl
theorem setSlot (h : Core.Keeps F c d) {k : Nat} {x : SlotSt} : Core.Keeps F c (d.setSlot k x) := upd h rfl rfl rfl rfl rfl rfl rfl rfl
theorem setAxis (h : Core.Keeps F c d) {k : Nat} {x : AxisSt} : Core.Keeps F c (d.setAxis k x) := upd h rfl rfl rfl rfl rfl rfl rfl rfl

/-- The key of a block's instance. -/
theorem many {b m st n s : Nat} {l : List Nat} (hn : n < m) (hs : s ∈ l)
    (he : (b, m, st, l) ∈ [(0x2803, 1, 0, [1, 2, 3, 4, 5, 6, 7, 8]), (0x2804, 1, 0, [1, 2, 3, 4, 5, 6, 7, 8]), (0x3220, 32, 1, [7]),
    (0x3240, 4, 1, [6]), (0x3250, 2, 1, [8, 9]), (0x3260, 2, 1, [4]), (0x2A10, 4, 1, [9, 10, 11, 12]),
    (0x4801, 2, 16, [1, 3, 4, 5, 7]), (0x5110, 3, 1, [3, 6, 8, 9, 13, 14])] := by simp) : unstaged (entKey (b + n * st) s) :=
  unstaged_many (b, m, st, l) he n hn s hs

theorem many1 {b m n s : Nat} {l : List Nat} (hn : n < m) (hs : s ∈ l)
    (he : (b, m, 1, l) ∈ [(0x2803, 1, 0, [1, 2, 3, 4, 5, 6, 7, 8]), (0x2804, 1, 0, [1, 2, 3, 4, 5, 6, 7, 8]), (0x3220, 32, 1, [7]),
    (0x3240, 4, 1, [6]), (0x3250, 2, 1, [8, 9]), (0x3260, 2, 1, [4]), (0x2A10, 4, 1, [9, 10, 11, 12]),
    (0x4801, 2, 16, [1, 3, 4, 5, 7]), (0x5110, 3, 1, [3, 6, 8, 9, 13, 14])] := by simp) : unstaged (entKey (b + n) s) := by
  have := unstaged_many (b, m, 1, l) he n hn s hs
  simpa using this

theorem pointsCommit (h : Core.Keeps unstaged c d) {old : Cfg} {k : Nat} (hk : k < 2) :
    Core.Keeps unstaged c (d.pointsCommit old k) := by
  unfold Core.pointsCommit
  extract_lets g i same c1 x b
  have hx : Core.Keeps unstaged c c1 := setPoints h
  refine ite (fun _ => h) (fun _ => ite (fun _ => ?_) (fun _ => ?_))
  · exact setPoints (setPointsState hx (fun _ => unstaged_points) hk)
  · exact setPoints (setEnt (setPointsState hx (fun _ => unstaged_points) hk) (many1 (l := [8, 9]) hk (by simp)))

theorem coexCommit (h : Core.Keeps unstaged c d) {old : Cfg} {k : Nat} (hk : k < 2) :
    Core.Keeps unstaged c (d.coexCommit old k) := by
  unfold Core.coexCommit
  refine ite (fun _ => ?_) (fun _ => h)
  exact setEntBit (setEnt (setCoex h) (many1 (l := [4]) hk (by simp))) unstaged_key

theorem timetableCommit (h : Core.Keeps unstaged c d) {old : Cfg} : Core.Keeps unstaged c (d.timetableCommit old) := by
  unfold Core.timetableCommit
  extract_lets g c1 c2 x
  have h1 : Core.Keeps unstaged c c1 := each (setEnt h unstaged_key) (fun t e ht =>
    setEnt refl (many1 (l := [6]) (m := 4) (by simp at ht; omega) (by simp)))
  have h2 : Core.Keeps unstaged c c2 := emit h1
  exact ite (fun _ => by exact upd h2 rfl rfl rfl rfl rfl rfl rfl rfl) (fun _ => h1)

theorem frameSourceCommit (h : Core.Keeps unstaged c d) {old : Cfg} : Core.Keeps unstaged c (d.frameSourceCommit old) := by
  unfold Core.frameSourceCommit
  extract_lets g x
  exact ite (fun _ => setFrameState (by exact upd h rfl rfl rfl rfl rfl rfl rfl rfl) (fun _ => unstaged_frame)) (fun _ => h)

theorem frontEndCommit (h : Core.Keeps unstaged c d) {old : Cfg} : Core.Keeps unstaged c (d.frontEndCommit old) := by
  unfold Core.frontEndCommit
  extract_lets g c1 x c2 c3
  have h1 : Core.Keeps unstaged c c1 := each h (fun n e hn =>
    ite (fun _ => setEnt refl (many1 (l := [7]) (by simpa using hn) (by simp))) (fun _ => refl))
  have h2 : Core.Keeps unstaged c c2 := upd h1 rfl rfl rfl rfl rfl rfl rfl rfl
  have h3 : Core.Keeps unstaged c c3 := each (each (timetableCommit h2)
    (fun k e hk => pointsCommit refl (by simp at hk; omega))) (fun k e hk => coexCommit refl (by simp at hk; omega))
  exact followTime (frameSourceCommit h3) (fun _ => unstaged_frame)

theorem captureCommit (h : Core.Keeps unstaged c d) : Core.Keeps unstaged c d.captureCommit := by
  refine each h (fun n e hn => ?_)
  have hn4 : n < 4 := by simp at hn; omega
  extract_lets x gone
  refine ite (fun _ => ?_) (fun _ => refl)
  refine stopCapture refl (fun sub a b => many1 (l := [9, 10, 11, 12]) hn4 ?_)
  rcases (by omega : sub = 9 ∨ sub = 10 ∨ sub = 11 ∨ sub = 12) with rfl | rfl | rfl | rfl <;> simp

theorem dropSweep (h : Core.Keeps unstaged c d) {p : Nat} (hp : p < 32) : Core.Keeps unstaged c (d.dropSweep p) := by
  unfold Core.dropSweep
  extract_lets c1 c2
  have h1 : Core.Keeps unstaged c c1 := endSweep h (fun k hk => unstaged_sweep hp hk)
  have h2 : Core.Keeps unstaged c c2 := modCanc (setEntBit (setPe (setPe (setPe h1 (unstaged_at hp)) (unstaged_at hp))
    (unstaged_at hp)) unstaged_key)
  exact ite (fun _ => h1) (fun _ => emit (setCal h2))

theorem sweepOwed (h : Core.Keeps unstaged c d) {p : Nat} : Core.Keeps unstaged c (d.sweepOwed p) := by
  unfold Core.sweepOwed
  extract_lets m
  exact persistUnit (setEnt h unstaged_key)

theorem packBlocks (h : Core.Keeps unstaged c d) : Core.Keeps unstaged c d.packBlocks := by
  have fold : ∀ (l : List Nat) (f : Core × Nat → Nat → Core × Nat) (a : Core × Nat), Core.Keeps unstaged c a.1 →
      (∀ x, x ∈ l → ∀ b : Core × Nat, Core.Keeps unstaged c b.1 → Core.Keeps unstaged c (f b x).1) →
      Core.Keeps unstaged c (l.foldl f a).1 := by
    intro l f
    induction l with
    | nil => exact fun a ha _ => ha
    | cons x r ih => exact fun a ha hf => ih _ (hf x List.mem_cons_self a ha) (fun y hy => hf y (List.mem_cons_of_mem _ hy))
  unfold Core.packBlocks
  extract_lets g r units
  have hr : Core.Keeps unstaged c r.1 := by
    refine fold _ _ _ (each h (fun b e hb => setEnt refl (unstaged_blocks (by simpa using hb)))) (fun p hp a ha => ?_)
    have hp := mem_allPaths hp
    extract_lets n c1 c2
    have h1 : Core.Keeps unstaged c c1 := setPe (setPe ha (unstaged_at hp)) (unstaged_at hp)
    exact each h1 (fun b e hb => ite (fun hn => setEnt refl (unstaged_blocks hn)) (fun _ => refl))
  exact setEnt (setEnt hr unstaged_key) unstaged_key

theorem cancCommit (h : Core.Keeps unstaged c d) {old : Cfg} : Core.Keeps unstaged c (d.cancCommit old) := by
  unfold Core.cancCommit
  extract_lets g c1
  have h1 : Core.Keeps unstaged c c1 := each h (fun p e hp => by
    have hp := mem_allPaths hp
    extract_lets x a b
    have ha : Core.Keeps unstaged e a := ite (fun _ => refl) (fun _ =>
      ite (fun _ => zeroTaps (dropSweep refl hp)) (fun _ => dropSweep refl hp))
    have hb : Core.Keeps unstaged e b := ite (fun _ => ha) (fun _ =>
      ite (fun _ => sweepPaid ha unstaged_key unstaged_key) (fun _ => ite (fun _ => sweepOwed ha) (fun _ => ha)))
    exact refreshAdapt hb (unstaged_at hp))
  exact packBlocks h1

theorem axisStart (h : Core.Keeps unstaged c d) {a : Nat} (ha : a < 2) : Core.Keeps unstaged c (d.axisStart a) := by
  have k : ∀ s, s ∈ [1, 3, 4, 5, 7] → unstaged (entKey (0x4801 + a * 16) s) := fun s hs => many ha hs
  unfold Core.axisStart
  extract_lets i s1 c1
  have h1 : Core.Keeps unstaged c c1 := setAxis (setEnt h (k 4 (by simp)))
  exact ite (fun _ => setEnt (setEnt h1 (k 3 (by simp))) (k 1 (by simp))) (fun _ => setEnt h1 (k 3 (by simp)))

theorem axisFault (h : Core.Keeps unstaged c d) {a x : Nat} (ha : a < 2) : Core.Keeps unstaged c (d.axisFault a x) := by
  have k : ∀ s, s ∈ [1, 3, 4, 5, 7] → unstaged (entKey (0x4801 + a * 16) s) := fun s hs => many ha hs
  exact emit (count (setEnt (setEnt h (k 3 (by simp))) (k 4 (by simp))) (k 7 (by simp)))

theorem writeCeiling (h : Core.Keeps unstaged c d) {p : Nat} (hp : p < 32) {x y : Option Int} :
    Core.Keeps unstaged c (d.writeCeiling p x y) := by
  unfold Core.writeCeiling
  extract_lets f c1
  exact refreshGain (setCdb (setCdb (modCanc h) (unstaged_at hp)) (unstaged_at hp)) (unstaged_at hp)

theorem refreshBox (h : Core.Keeps unstaged c d) : Core.Keeps unstaged c d.refreshBox := by
  unfold Core.refreshBox
  extract_lets st
  exact setEnt (setEnt h unstaged_key) unstaged_key

theorem boxCommit (h : Core.Keeps unstaged c d) {old : Cfg} : Core.Keeps unstaged c (d.boxCommit old) := by
  unfold Core.boxCommit
  extract_lets g s1 c1 c2 c3 c4 w1 t1 k1 c5
  have h1 : Core.Keeps unstaged c c1 := each h (fun n e hn => by
    have hn : n < 96 := by simp at hn; omega
    refine ite (fun _ => ite (fun _ => ?_) (fun _ => ite (fun _ => setSlot refl) (fun _ => refl))) (fun _ =>
      ite (fun _ => ?_) (fun _ => refl))
    · exact setEnt (setSlot refl) (unstaged_slot hn (by omega) (by omega) (by omega))
    · exact setEnt (setEnt (setSlot refl) (unstaged_slot hn (by omega) (by omega) (by omega)))
        (unstaged_slot hn (by omega) (by omega) (by omega)))
  have h2 : Core.Keeps unstaged c c2 := each h1 (fun p e hp => by
    have hp := mem_allPaths hp
    extract_lets s on c'
    have h' : Core.Keeps unstaged e c' := setEnt (setEnt (setEnt refl (unstaged_slot (by omega) (by omega) (by omega) (by omega)))
      (unstaged_slot (by omega) (by omega) (by omega) (by omega))) (unstaged_slot (by omega) (by omega) (by omega) (by omega))
    refine ite (fun _ => h') (fun _ => setPe (writeCeiling (setEnt (setSlot h') ?_) hp) (unstaged_at hp))
    exact unstaged_slot (by omega) (by omega) (by omega) (by omega))
  have h3 : Core.Keeps unstaged c c3 := each h2 (fun a e ha => by
    have ha2 : a < 2 := by simp at ha; omega
    have k : ∀ s, s ∈ [1, 3, 4, 5, 7] → unstaged (entKey (0x4800 + a * 16 + 1) s) := fun s hs => by
      have := many (b := 0x4801) (m := 2) (st := 16) ha2 hs
      rwa [show 0x4801 + a * 16 = 0x4800 + a * 16 + 1 by omega] at this
    extract_lets i
    refine ite (fun _ => ite (fun _ => axisFault (axisStart refl ha2) ha2) (fun _ => axisStart refl ha2)) (fun _ => ite (fun _ => ?_) (fun _ => refl))
    exact setAxis (setEnt (setEnt refl (k 3 (by simp))) (k 5 (by simp))))
  have h4 : Core.Keeps unstaged c c4 := setEnt (setEnt (setEnt h3 unstaged_key) unstaged_key) unstaged_key
  have h5 : Core.Keeps unstaged c c5 := by
    refine ite (fun _ => h4) (fun _ => ?_)
    split
    · exact h4
    · have ht : Core.Keeps unstaged c t1 := wrapAdd h4 unstaged_key
      have hk : Core.Keeps unstaged c k1 := count h4 unstaged_key
      exact ite (fun _ => h4) (fun _ => ite (fun _ => by exact upd h4 rfl rfl rfl rfl rfl rfl rfl rfl) (fun _ =>
        ite (fun _ => by exact upd ht rfl rfl rfl rfl rfl rfl rfl rfl) (fun _ => by exact upd hk rfl rfl rfl rfl rfl rfl rfl rfl)))
  exact refreshBox h5

end Keeps

end Sys2Proof.Machine
end

