-- ==== Sys2Proof/Laws/LineFrames.lean ====
section
/-! SUPPORT. What changes of the Line's ports, ring and admission, and a whole new configuration, leave alone. -/

set_option Elab.async false

namespace Sys2Proof.Machine.Keeps
variable {c d : Core} {F : Nat → Prop}

theorem sourceLost (h : Core.Keeps F c d) {x : Nat} (hF : ∀ k, footTime k ∨ k = entKey 0x5100 0 → F k) :
    Core.Keeps F c (d.sourceLost x) := by
  unfold Core.sourceLost
  extract_lets q t1 c1 c2 best
  have h1 : Core.Keeps F c c1 := upd h rfl rfl rfl rfl rfl rfl rfl rfl
  have h2 : Core.Keeps F c c2 := ite (fun _ => setEntBit h1 (hF _ (.inr rfl))) (fun _ => h1)
  refine ite (fun _ => h) (fun _ => ite (fun _ => h2) (fun _ => ite (fun _ => ?_) (fun _ => ?_))) <;>
  exact setTime h2 (fun k hk => hF k (.inl hk))


theorem refreshRoot (h : Core.Keeps unstaged c d) : Core.Keeps unstaged c d.refreshRoot := by
  unfold Core.refreshRoot
  extract_lets t
  refine ite (fun _ => h) (fun _ => setEnt (setEnt ?_ unstaged_key) unstaged_key)
  exact upd h rfl rfl rfl rfl rfl rfl rfl rfl

theorem refreshInbound (h : Core.Keeps unstaged c d) : Core.Keeps unstaged c d.refreshInbound := by
  unfold Core.refreshInbound
  extract_lets l
  refine ite (fun _ => h) (fun _ => refreshPaths ?_ (fun p k hp hk => unstaged_path hp hk))
  exact upd h rfl rfl rfl rfl rfl rfl rfl rfl

theorem setAdmission (h : Core.Keeps unstaged c d) {n : Nat} : Core.Keeps unstaged c (d.setAdmission n) := by
  unfold Core.setAdmission
  extract_lets old c1 x c2
  have h1 : Core.Keeps unstaged c c1 := emit (setEntBit (setEnt h unstaged_key) unstaged_key)
  have h2 : Core.Keeps unstaged c c2 := upd h1 rfl rfl rfl rfl rfl rfl rfl rfl
  refine ite (fun _ => h) (fun _ => ite (fun _ => ?_) (fun _ => ite (fun _ => ?_) (fun _ => h2))) <;>
  exact recompute (setEnt h2 unstaged_key) (fun _ => unstaged_mode)

theorem refreshAdmission (h : Core.Keeps unstaged c d) : Core.Keeps unstaged c d.refreshAdmission := by
  unfold Core.refreshAdmission
  refine ite (fun _ => h) (fun _ => ?_)
  split
  · exact setAdmission h
  · extract_lets c1
    have h1 : Core.Keeps unstaged c c1 := setEnt h unstaged_key
    exact ite (fun _ => setAdmission h1) (fun _ => h1)

theorem refreshTimePort (h : Core.Keeps unstaged c d) : Core.Keeps unstaged c d.refreshTimePort := by
  unfold Core.refreshTimePort
  extract_lets old new hops c1 c2
  have h1 : Core.Keeps unstaged c c1 := setEnt (setEnt h unstaged_key) unstaged_key
  have h2 : Core.Keeps unstaged c c2 := emit (setEnt h1 unstaged_key)
  refine ite (fun _ => h) (fun _ => ite (fun _ => h1) (fun _ => ?_))
  clear_value c2 c1 hops new
  split
  · refine sourceLost h2 (fun k hk => hk.elim unstaged_time (fun e => ?_))
    rw [e]; exact unstaged_key
  · exact ite (fun _ => emit h2) (fun _ => h2)

theorem setRing (h : Core.Keeps unstaged c d) {r : Bool} {a b : Nat} : Core.Keeps unstaged c (d.setRing r a b) := by
  unfold Core.setRing
  extract_lets c1 x c2 c3
  have h1 : Core.Keeps unstaged c c1 := setEnt (setEntBit (setEntBit h unstaged_key) unstaged_key) unstaged_key
  have h2 : Core.Keeps unstaged c c2 := upd h1 rfl rfl rfl rfl rfl rfl rfl rfl
  have h3 : Core.Keeps unstaged c c3 := ite (fun _ => h2) (fun _ => setEnt (count h2 unstaged_key) unstaged_key)
  exact ite (fun _ => h) (fun _ => emit h3)

theorem breakRing (h : Core.Keeps unstaged c d) : Core.Keeps unstaged c d.breakRing := by
  unfold Core.breakRing
  split
  · exact setRing h
  · exact setRing (draw (draw h))

theorem refreshRing (h : Core.Keeps unstaged c d) : Core.Keeps unstaged c d.refreshRing := by
  unfold Core.refreshRing
  extract_lets both closed fell x c1
  have h1 : Core.Keeps unstaged c c1 := upd h rfl rfl rfl rfl rfl rfl rfl rfl
  exact ite (fun _ => h) (fun _ => ite (fun _ => setRing h1) (fun _ => ite (fun _ => breakRing h1) (fun _ => h1)))

theorem setPortState (h : Core.Keeps unstaged c d) {q n : Nat} (hq : q < 3) : Core.Keeps unstaged c (d.setPortState q n) := by
  have k : ∀ s, s ∈ [3, 6, 8, 9, 13, 14] → unstaged (entKey (0x5110 + q) s) := fun s hs => many1 hq hs
  unfold Core.setPortState
  extract_lets i old c1 fell x sl c2 c3 c4 c5
  have h1 : Core.Keeps unstaged c c1 := emit (setEntBit (setEnt h (k 3 (by simp))) unstaged_key)
  have hx : Core.Keeps unstaged c x := modPort (count h1 (k 9 (by simp)))
  clear_value x
  have h2 : Core.Keeps unstaged c c2 := ite (fun _ => by exact upd hx rfl rfl rfl rfl rfl rfl rfl rfl) (fun _ => h1)
  clear_value c2
  have h3 : Core.Keeps unstaged c c3 := ite (fun _ => modPort h2) (fun _ => h2)
  clear_value c3
  have h4 : Core.Keeps unstaged c c4 := ite (fun _ => setEnt h3 (k 6 (by simp))) (fun _ =>
    ite (fun _ => setEnt h3 (k 6 (by simp))) (fun _ => h3))
  clear_value c4
  have h5 : Core.Keeps unstaged c c5 := ite (fun _ => setEnt h4 (k 8 (by simp))) (fun _ => h4)
  exact ite (fun _ => h) (fun _ => refreshRing (refreshAdmission (refreshInbound (refreshTimePort h5))))

theorem lineCommit (h : Core.Keeps unstaged c d) : Core.Keeps unstaged c d.lineCommit := by
  unfold Core.lineCommit
  extract_lets c1 c2 c3 c4
  have h1 : Core.Keeps unstaged c c1 := each h (fun q e hq => by
    have hq : q < 3 := by simp [ports3] at hq; omega
    have k : ∀ s, s ∈ [3, 6, 8, 9, 13, 14] → unstaged (entKey (0x5110 + q) s) := fun s hs => many1 hq hs
    extract_lets i units b
    have hb : Core.Keeps unstaged e b := setEnt (setEnt refl (k 13 (by simp))) (k 14 (by simp))
    exact ite (fun _ => setPortState hb hq) (fun _ => ite (fun _ => setPortState hb hq) (fun _ => hb)))
  have h2 : Core.Keeps unstaged c c2 := setEntBit h1 unstaged_key
  have h3 : Core.Keeps unstaged c c3 := ite (fun _ => setAdmission (setEnt (setEnt h2 unstaged_key) unstaged_key))
    (fun _ => refreshAdmission h2)
  have h4 : Core.Keeps unstaged c c4 := ite (fun _ => ite (fun _ => setEnt h3 unstaged_key) (fun _ => h3))
    (fun _ => ite (fun _ => setEnt (setEntBit h3 unstaged_key) unstaged_key) (fun _ => h3))
  exact refreshInbound (refreshRoot h4)

theorem refreshOverload' (h : Core.Keeps unstaged c d) : Core.Keeps unstaged c d.refreshOverload := by
  refine each (refreshPoints h (fun _ => unstaged_points)) (fun p e hp => ?_)
  have hp := mem_allPaths hp
  extract_lets x
  exact ite (fun _ => refl) (fun _ => guardApply (modGuardPath refl) (fun k hk => unstaged_guard hp hk))

theorem applyConfig (h : Core.Keeps unstaged c d) {old : Cfg} : Core.Keeps unstaged c (d.applyConfig old) := by
  unfold Core.applyConfig
  extract_lets g c1 c2 c3 c4 c5 c6 c7
  have h1 : Core.Keeps unstaged c c1 := each h (fun p e hp => by
    have hp := mem_allPaths hp
    exact commitRecords (commitResets (pathStatus (commitWindows (modPath refl) hp) hp) hp))
  have h2 : Core.Keeps unstaged c c2 := setEnt (setEnt h1 unstaged_key) unstaged_key
  have h3 : Core.Keeps unstaged c c3 := setEnt h2 unstaged_key
  have h4 : Core.Keeps unstaged c c4 := cancCommit (captureCommit (guardCommit (frontEndCommit h3)))
  have h5 : Core.Keeps unstaged c c5 := lineCommit (boxCommit h4)
  have h6 : Core.Keeps unstaged c c6 := each (each h5 (fun n e hn => twApply (by simp at hn; omega) unstaged_wire refl))
    (fun n e hn => twServe (by simp at hn; omega) unstaged_wire refl)
  have h7 : Core.Keeps unstaged c c7 := refreshTdd (refreshOverload' (refreshConverters h6 (fun n hn =>
    ⟨unstaged_cv (tx := false) hn, unstaged_cv (tx := true) hn⟩))) (fun _ => unstaged_frame)
  refine each h7 (fun p e hp => ?_)
  have hp := mem_allPaths hp
  extract_lets c'
  have h' : Core.Keeps unstaged e c' := ite (fun _ => refreshNeed refl (unstaged_at hp)) (fun _ => refl)
  exact refreshPath (refreshGain (refreshLevel h' (unstaged_at hp)) (unstaged_at hp)) (fun k hk => unstaged_path hp hk)

end Sys2Proof.Machine.Keeps
end

