-- ==== Sys2Proof/Tests/Slice0.lean ====
section
/-! SUPPORT. The tests: an ill-formed term for each check of WellFormed, a few single steps against the manual, and for each
statement with hypotheses a state and operands that meet them. -/

set_option Elab.async false

namespace Sys2Proof.Tests
open Sys2Proof Sys2Proof.Machine

def host : Origin := ⟨.hspi, 0, 1, 0, false, false, 0, 0⟩

/-- A part in DEPOT, its clock running. -/
def ready : State :=
  { State.reset with core := { Core.init with phase := .ready, ticking := true, now := 10000000000000, clock := 5120 } }

/-- `ready` with entries set. -/
def st (l : List (Nat × Nat × Nat)) : State := ready.onCore (fun c => l.foldl (fun c e => c.setEnt e.1 e.2.1 e.2.2) c)

/-- `ready` with entries set and its core changed. -/
def sc (l : List (Nat × Nat × Nat)) (f : Core → Core) : State := (st l).onCore f

/-- Path 0 configured, from RFIN 0 to RFOUT 0. -/
def onPath : List (Nat × Nat × Nat) :=
  [(pIdx 0 0, 1, 2), (pIdx 0 0, 2, 0x1000), (pIdx 0 0, 4, 0x4000), (pIdx 0 0, 8, 90000000), (pIdx 0 8, 1, 9), (0x1201, 0, 3),
   (pIdx 0 0x1B, 5, 1), (pIdx 0 9, 1, 0)]

/-- Path 0's converters calibrated and ready. -/
def liveable : List (Nat × Nat × Nat) := [(0x2803, 1, 7), (0x2804, 1, 7), (0x2800, 1, 1), (0x2801, 1, 1)]

/-- A save with its first 79 pages written. -/
def saving : Save := ⟨3, 9, 79, 79, 5, 6, 2, 1, []⟩
def aRecord : Record := ⟨5, 3, 0, 1, 0x302, 4, [1, 2]⟩

/-- A request's header and a response's, of entry 0x1100.00 with tag `t` (R314). -/
def request (op t : Nat) (v : List Byte) : List Byte :=
  d8 op ++ d8 0 ++ d16 t ++ d32 0 ++ leBytes 8 0 ++ d16 0x1100 ++ d8 0 ++ d8 0 ++ d16 v.length ++ v
def response (t : Nat) : List Byte :=
  d8 0x81 ++ d8 0 ++ d16 t ++ d32 0 ++ d16 0 ++ d16 0x1100 ++ d8 0 ++ d8 0 ++ d16 0
def hspiOf (dest : Nat) (b : List Byte) : List Byte := d16 dest ++ d8 0 ++ d8 0 ++ d16 0 ++ d16 b.length ++ b

/-- A Line node with address 3 and a framed port, behind which node 9 was learned. -/
def onLine : State :=
  sc [(0x1130, 0, 100), (0x5103, 1, 3), (0x5110, 3, 3)] (fun c => { c with line := { c.line with learned := [(9, ⟨0, 5⟩)] } })

/-- A roster entry of address `a` and state `n`; a pending join of kind `k`. -/
def rosterBytes (a n : Nat) : List Byte := d16 a ++ d8 n ++ d8 0xFF ++ List.replicate 32 6 ++ d32 0
def pendEntry (a k : Nat) : Nat := ofLe (d16 a ++ d8 k ++ List.replicate 17 0 ++ List.replicate 32 3)

/-- A slot's run with output 5. -/
def run (late holds : Bool) : SlotRun :=
  { out := 5, regs := [1, 2, 3, 4], mPrev := 5, nOn := 1, nOff := 2, on := true, r0 := 77, remaining := 3, sats := 1,
    late := late, computed := true, holds := holds, in0 := none, in1 := none, seq0 := 0, seq1 := 0, state := 1, stale := 0,
    good := 0, hand := 0, found := 0 }

/-- The ACTIVE chip of a pair that is PROTECTED, in RUN; and one with a swap at phase `n` and tick `t`. -/
def protected_ : State := st [(0x5000, 0, 0x0D), (0x5001, 0, 1), (0x5002, 0, 2), (0x1100, 0, 2), (0x7010, 1, 1),
  (0x7010, 4, 2 ^ 64 - 1769472000000)]
def swapping (n t : Nat) (out : Bool) : State :=
  protected_.onCore (fun c => { c with twin := { c.twin with swapPhase := n, swapTick := some t, swapOut := out } })

/-- The header of lane `n` of a Line frame of tick 5,120 (R283). -/
def header (n : Nat) : List Byte :=
  let b := d16 (0x5B3C + n) ++ d8 0 ++ d8 0 ++ leBytes 8 5120 ++ d16 9
  b ++ d16 (crc16 b)

theorem serialNo_length : serialNo.length = 16 := by simp [serialNo, padTo]; omega
theorem field_serial (l : List Byte) (n k : Nat) : field (serialNo ++ l) (16 + n) k = field l n k := by
  have h : serialNo.drop (16 + n) = [] := List.drop_eq_nil_of_le (by simp [serialNo_length])
  simp [field, List.drop_append, serialNo_length, h]

/-! ## Well-formedness: an ill-formed term for each check, refused -/

theorem test_wf_entryWrite : (Instr.entryWrite host 0x1100 0 (List.replicate 4097 0)).wellFormed = false := by decide +kernel
theorem test_wf_rfinWord : (Instr.rfinWord 0 []).wellFormed = false := by decide
theorem test_wf_oobCheck : (Instr.oobCheck 0 (List.replicate 33 default)).wellFormed = false := by decide
theorem test_wf_twinFrameReceive : (Instr.twinFrameReceive (List.replicate 767 0)).wellFormed = false := by decide +kernel
theorem test_wf_frame_header : (LineFrame.wellFormed ⟨[], List.replicate 16 0, List.replicate 16 (List.replicate 192 0), 0⟩) = false := by
  decide +kernel
theorem test_wf_frame_second_header :
    (LineFrame.wellFormed ⟨List.replicate 16 0, [], List.replicate 16 (List.replicate 192 0), 0⟩) = false := by decide +kernel
theorem test_wf_frame_cells :
    (LineFrame.wellFormed ⟨List.replicate 16 0, List.replicate 16 0, List.replicate 15 (List.replicate 192 0), 0⟩) = false := by
  decide +kernel
theorem test_wf_frame_cell :
    (LineFrame.wellFormed ⟨List.replicate 16 0, List.replicate 16 0, List.replicate 16 (List.replicate 191 0), 0⟩) = false := by
  decide +kernel
theorem test_wf_packet_short : (Instr.managementPacket 0 (List.replicate 16 0)).wellFormed = false := by decide
theorem test_wf_packet_long : (Instr.managementPacket 0 (List.replicate 1025 0)).wellFormed = false := by decide +kernel
theorem test_wf_joinRequest : (Instr.joinRequest []).wellFormed = false := by decide
theorem test_wf_joinChallenge : (Instr.joinChallenge []).wellFormed = false := by decide
theorem test_wf_joinAnswer : (Instr.joinAnswer []).wellFormed = false := by decide
theorem test_wf_joinDecision : (Instr.joinDecision []).wellFormed = false := by decide
theorem test_wf_pendingAccept : (Instr.pendingAccept host 1 []).wellFormed = false := by decide
theorem test_wf_pendingReject : (Instr.pendingReject host 1 []).wellFormed = false := by decide
theorem test_wf_rosterWrite : (Instr.rosterWrite host []).wellFormed = false := by decide
theorem test_wf_hspiRequest : (Instr.hspiRequest (List.replicate 4127 0)).wellFormed = false := by decide +kernel
theorem test_wf_lineResponse : (Instr.lineResponse 1 []).wellFormed = false := by decide
theorem test_wf_attestation : (Instr.attestation host []).wellFormed = false := by decide
theorem test_wf_nineClocks : (Instr.nineClockRecovery 0 0 true).wellFormed = false := by decide
theorem test_wf_sdaStuck : (Instr.sdaStuckRetry 0 10 true).wellFormed = false := by decide

/-! ## One step on a small state; each expected value is the manual's -/

/-- An entry after one command. -/
def entAfter (i : Instr) (s : State) (index sub : Nat) : Option Nat :=
  match exec i s with
  | .next t => some (t.core.ent index sub)
  | _ => none

/-- R86: the table of CIC delays, slowest rate last. -/
theorem test_cic_ticks : [4, 3, 2, 1].map cicTicks = [5, 10, 20, 40] := by decide
/-- R85 and the map: both latencies are 122 at reset. -/
theorem test_latency_default : (Core.init.pe 31 0 11, Core.init.pe 31 0 12) = (122, 122) := by decide +kernel
/-- R309 step 10: a LATENCY below 88. -/
theorem test_latency_range : ready.core.writeCheck host 0x2000 11 (d32 87) = 0x0301 := by decide +kernel
/-- R309: an entry that does not exist, and one that only reads. -/
theorem test_unlisted_entry : ready.core.writeCheck host 0x0FFF 0 [0] = 0x0101 := by decide +kernel
theorem test_read_only_entry : ready.core.writeCheck host 0x1004 0 (leBytes 8 0) = 0x0201 := by decide +kernel
/-- R233, R235: two encoder edges on one tick are a fault with cause 1 of an enabled axis. -/
theorem test_encoder_illegal :
    entAfter (.encoderEdge 1 true true) (st [(0x4810, 1, 1)]) 0x4811 4 = some 1 := by decide +kernel
/-- R233: one edge counts one. -/
theorem test_encoder_count : (entAfter (.encoderEdge 0 true false) (st [(0x4801, 1, 7)]) 0x4801 1).map (fun v => (v + 1) % 2 ^ 32)
    ∈ [some 7, some 9] := by
  unfold entAfter
  have h : Config.encoderUp = true ∨ Config.encoderUp = false := by cases Config.encoderUp <;> simp
  rcases h with h | h <;> simp only [exec, execEncoderEdge, Core.encoderEdge, h] <;> decide +kernel
/-- R440: IDCODE selects the identification register, which reads 0x1321_6993. -/
theorem test_idcode : identification = 0x13216993 := by decide
/-- R442: HIGHZ loaded while RESET_N is high acts as BYPASS. -/
theorem test_highz_as_bypass : (match exec .highz ready with | .next t => t.jtag.inForce | _ => some 0) = none := by decide +kernel
/-- R395: the first byte of a TWT write is the pointer. -/
theorem test_twt_pointer : entAfter (.twtWriteByte true 0x42) (st [(0x6340, 1, 1)]) 0x6340 3 = some 0x42 := by decide +kernel
/-- R309 step 5 and step 8. -/
theorem test_no_such_subindex : ready.core.writeCheck host 0x1210 9 [0] = 0x0102 := by decide +kernel
theorem test_value_length : ready.core.writeCheck host 0x1210 1 [0] = 0x0104 := by decide +kernel
/-- R8: a B entry takes 0 and 1 only. -/
theorem test_bool_encoding : ready.core.writeCheck host 0x6340 1 [2] = 0x0302 := by decide +kernel
/-- R45: an hour of power. -/
theorem test_power_on_hour : entAfter .powerOnHour (st [(0x1120, 0, 41)]) 0x1120 0 = some 42 := by decide +kernel
/-- R172: the Line's stop with action 1 stands, and bit 2 of 0x3100 shows it. -/
theorem test_line_stop : (entAfter (.lineStopStand host) ready 0x3104 2, entAfter (.lineStopStand host) ready 0x3100 0) =
    (some 1, some 4) := by decide +kernel

/-- Meets the hypotheses of `Obligations.StepRunsFrontCommand`. -/
theorem meets_step_runs_front_command : ∃ s : State, s.pending = .startLock :: [.idcode] :=
  ⟨{ ready with pending := [.startLock, .idcode] }, by decide +kernel⟩

/-- Meets the hypotheses of `Obligations.MuteAndMaximaWrites`. -/
theorem meets_mute_and_maxima_writes :
    (∃ s : State, Accepts s host (pIdx 31 3) 0 (d8 1) ∧ s.core.shared = false) ∧
    (∃ s : State, Accepts s host (pIdx 31 0x10) 3 (d8 1) ∧ Accepts s host 0x2A02 0 (d8 1) ∧ Accepts s host 0x2886 0 (d8 1)) ∧
    (∃ s : State, s.core.shared = true ∧ Accepts s host (pIdx 0 3) 0 (d8 0) ∧ Accepts s host (pIdx 0 0x10) 1 (d16 100) ∧
      Accepts s host 0x1211 1 (d32 2000000)) :=
  ⟨⟨ready,
     by unfold Accepts; decide +kernel⟩,
   ⟨ready,
     by unfold Accepts; decide +kernel⟩,
   ⟨st [(0x5001, 0, 1), (0x5002, 0, 2)],
     by unfold Accepts; decide +kernel⟩⟩

/-- Meets the hypotheses of `Obligations.StoppingAndResetWrites`. -/
theorem meets_stopping_and_reset_writes :
    (∃ s : State, Accepts s host (pIdx 31 0x10) 1 (d16 20) ∧ s.core.shared = false ∧ s.core.ent (pIdx 31 0x10) 1 ≠ 20) ∧
    (∃ s : State, Accepts s host (pIdx 31 0x10) 1 (d16 20) ∧ s.core.shared = false ∧ s.core.ent (pIdx 31 0x10) 1 = 20) ∧
    (∃ s : State, Accepts s host (pIdx 31 9) 5 (d8 1) ∧ s.core.entBit 0x110A 0 31 = true) ∧
    (∃ s : State, Accepts s host (pIdx 31 9) 5 (d8 1) ∧ s.core.entBit 0x110A 0 31 = false ∧ s.core.cfg.configured 31 = false) ∧
    (∃ s : State, Accepts s host (pIdx 0 9) 5 (d8 1) ∧ s.core.entBit 0x110A 0 0 = false ∧ s.core.cfg.configured 0 = true) :=
  ⟨⟨ready,
     by unfold Accepts; decide +kernel⟩,
   ⟨st [(pIdx 31 0x10, 1, 20)],
     by unfold Accepts; decide +kernel⟩,
   ⟨st [(0x110A, 0, 0x80000000)],
     by unfold Accepts; decide +kernel⟩,
   ⟨ready,
     by unfold Accepts; decide +kernel⟩,
   ⟨st onPath,
     by unfold Accepts; decide +kernel⟩⟩

/-- Meets the hypotheses of `Obligations.CaptureStates`. -/
theorem meets_capture_states :
    (∃ s : State, Accepts s host 0x2A13 8 (d8 1) ∧ s.core.capturing 3 = true ∧ Accepts s host 0x2A13 8 (d8 2)) ∧
    (∃ s : State, Accepts s host 0x2A10 8 (d8 1) ∧ s.core.capturing 0 = false ∧ s.core.entBit 0x2A04 0 1 = true) ∧
    (∃ s : State, Accepts s host 0x2A10 8 (d8 1) ∧ s.core.capturing 0 = false ∧ s.core.entBit 0x2A04 0 1 = false ∧
      s.core.pointUsable 0 = false) ∧
    (∃ s : State, Accepts s host 0x2A10 8 (d8 1) ∧ s.core.capturing 0 = false ∧ s.core.entBit 0x2A04 0 1 = false ∧
      s.core.pointUsable 0 = true) ∧
    (∃ s : State, Accepts s host 0x2A10 8 (d8 2) ∧ s.core.capturing 0 = false) ∧
    (∃ s : State, s.core.captureFull 0 = true) :=
  ⟨⟨st [(0x2A13, 9, 1)],
     by unfold Accepts; decide +kernel⟩,
   ⟨st [(0x2A04, 0, 2)],
     by unfold Accepts; decide +kernel⟩,
   ⟨ready,
     by unfold Accepts; decide +kernel⟩,
   ⟨st (onPath ++ [(0x2A10, 1, 0x100)]),
     by unfold Accepts; decide +kernel⟩,
   ⟨ready,
     by unfold Accepts; decide +kernel⟩,
   ⟨sc [(0x2A10, 9, 3)] (fun c => c.setCapture 0 { c.capture 0 with afterTrigger := 65535 }),
     by decide +kernel⟩⟩

/-- Meets the hypotheses of `Obligations.PathMuteMoments`. -/
theorem meets_path_mute_moments :
    (∃ s : State, s.core.cfg.configured 0 = true ∧ s.core.pe 0 9 1 = 0 ∧ bit (s.core.pe 0 1 2) 6 = true) ∧
    (∃ s : State, s.core.mayGoLive 0 = true ∧ atOrBefore (s.core.rampFrom 0) s.core.clock = true ∧
      Nat.land (s.core.guardCauses 0) 0xA9 = 0) ∧
    (∃ s : State, s.core.mayGoLive 0 = true ∧ atOrBefore (s.core.rampFrom 0) s.core.clock = false) ∧
    (∃ s : State, (s.core.path 31).ramp = some ⟨true, 64⟩ ∧ s.core.pe 31 1 1 = psUp) ∧
    (∃ s : State, (s.core.path 31).ramp = some ⟨false, 64⟩ ∧ s.core.pe 31 1 1 = psDown) :=
  ⟨⟨st (onPath ++ [(pIdx 0 1, 2, 64)]),
     by decide +kernel⟩,
   ⟨st (onPath ++ [(0x2803, 1, 7), (0x2804, 1, 7), (0x1100, 0, 2), (pIdx 0 1, 1, 1)]),
     by decide +kernel⟩,
   ⟨sc (onPath ++ [(0x2803, 1, 7), (0x2804, 1, 7), (0x1100, 0, 2), (pIdx 0 1, 1, 1)])
      (fun c => c.modPath 0 (fun s => { s with gateAt := some (c.clock + 1) })),
     by decide +kernel⟩,
   ⟨sc [(pIdx 31 1, 1, 2)] (fun c => c.setPath 31 { c.path 31 with ramp := some ⟨true, 64⟩ }),
     by decide +kernel⟩,
   ⟨sc [(pIdx 31 1, 1, 4)] (fun c => c.setPath 31 { c.path 31 with ramp := some ⟨false, 64⟩ }),
     by decide +kernel⟩⟩

/-- Meets the hypotheses of `Obligations.ConverterMoments`. -/
theorem meets_converter_moments :
    (∃ s : State, s.core.cvOn (.rfin 7) = true ∧ s.core.wantsPower (cvTx (.rfin 7)) (cvNum (.rfin 7)) = false) ∧
    (∃ s : State, s.core.cvOn (.rfout 0) = true ∧ s.core.entBit (cvIndex (.rfout 0)) (cvNum (.rfout 0) + 1) 1 = false) :=
  ⟨⟨st [(0x2803, 8, 7)],
     by decide +kernel⟩,
   ⟨st [(0x2804, 1, 1)],
     by decide +kernel⟩⟩

/-- Meets the hypotheses of `Obligations.WordsInAndOut`. -/
theorem meets_words_in_and_out :
    (∃ s : State, s.core.rfinOn 7 = true ∧ ((s.core.rfin 7).buffer.filter (fun w => !w.2.isEmpty)).length < 8 ∧
      (List.replicate 16 (2047 : BitVec 12)).length = 16) ∧
    (∃ s : State, s.core.rfinOn 0 = true ∧ 8 ≤ ((s.core.rfin 0).buffer.filter (fun w => !w.2.isEmpty)).length) ∧
    (∃ s : State, s.core.awake = true ∧ s.core.ticking = true ∧ s.core.silenced = false) ∧
    (∃ s : State, s.core.awake = true ∧ s.core.ticking = true ∧ s.core.silenced = true) :=
  ⟨⟨st [(0x2803, 8, 7), (0x2800, 8, 1)],
     by decide +kernel⟩,
   ⟨sc [(0x2803, 1, 7), (0x2800, 1, 1)] (fun c => c.setRfin 0 { c.rfin 0 with buffer := List.replicate 8 (0, [5]) }),
     by decide +kernel⟩,
   ⟨ready,
     by decide +kernel⟩,
   ⟨sc [] (fun c => { c with supply := { c.supply with forced := true } }),
     by decide +kernel⟩⟩

/-- Meets the hypotheses of `Obligations.WindowEnds`. -/
theorem meets_window_ends :
    (∃ s : State, s.core.exDue 0 .input = true) ∧
    (∃ s : State, s.core.exDue 0 .output = true ∧ ((s.core.path 0).ex .output).window = none) ∧
    (∃ s : State, s.core.stDue 0 .input = true) ∧
    (∃ s : State, s.core.stDue 0 .output = true ∧ ((s.core.path 0).st .output).window = none) ∧
    (∃ s : State, s.core.awake = true ∧ s.core.clock % 1024 = 0 ∧ s.core.mode ≠ mShunt) :=
  ⟨⟨sc onPath (fun c => c.setPath 0 { c.path 0 with exIn := { (c.path 0).exIn with count := 64, window := some 5 } }),
     by decide +kernel⟩,
   ⟨sc onPath (fun c => c.setPath 0 { c.path 0 with exOut := { (c.path 0).exOut with count := 64 } }),
     by decide +kernel⟩,
   ⟨sc onPath (fun c => c.setPath 0 { c.path 0 with delay := [⟨0, 0, true, 5100, 0⟩], stIn := { (c.path 0).stIn with count := 20, window := some 5 } }),
     by decide +kernel⟩,
   ⟨sc onPath (fun c => { c.setPath 0 { c.path 0 with stOut := { (c.path 0).stOut with count := 20 } } with clock := 0 }),
     by decide +kernel⟩,
   ⟨ready,
     by decide +kernel⟩⟩

/-- Meets the hypotheses of `Obligations.TapCommands`. -/
theorem meets_tap_commands :
    (∃ s : State, Accepts s host (pIdx 31 0x19) 5 (d8 1) ∧ s.core.ent (pIdx 31 0x19) 5 ≠ 1 ∧
      Accepts s host (pIdx 31 0x19) 6 (d8 1) ∧ s.core.entBit 0x110A 0 31 = false) ∧
    (∃ s : State, Accepts s host (pIdx 0 0x19) 5 (d8 0) ∧ s.core.ent (pIdx 0 0x19) 5 ≠ 0 ∧
      Accepts s host (pIdx 0 0x19) 6 (d8 1) ∧ s.core.entBit 0x110A 0 0 = true) :=
  ⟨⟨ready,
     by unfold Accepts; decide +kernel⟩,
   ⟨st [(pIdx 0 0x19, 5, 1), (0x110A, 0, 1)],
     by unfold Accepts; decide +kernel⟩⟩

/-- Meets the hypotheses of `Obligations.Sweeps`. -/
theorem meets_sweeps :
    (∃ s : State, Accepts s host (pIdx 31 0x1C) 1 (d8 1) ∧ (s.core.path 31).canc.phase = 0 ∧ s.core.sweepRefusal 31 ≠ 0 ∧
      Accepts s host (pIdx 31 0x1C) 1 (d8 2)) ∧
    (∃ s : State, Accepts s host (pIdx 0 0x1C) 1 (d8 1) ∧ (s.core.path 0).canc.phase = 0 ∧ s.core.sweepRefusal 0 = 0) ∧
    (∃ s : State, Accepts s host (pIdx 31 0x1C) 1 (d8 2) ∧ (s.core.path 31).canc.phase ≠ 0 ∧ s.core.phaseSpent 31 = true ∧
      (s.core.path 31).canc.phase ≠ 4) ∧
    (∃ s : State, s.core.phaseSpent 31 = true ∧ (s.core.path 31).canc.phase = 4) ∧
    (∃ s : State, s.core.phaseSpent 0 = true ∧ (s.core.path 0).canc.phase = 1) :=
  ⟨⟨ready,
     by unfold Accepts; decide +kernel⟩,
   ⟨st (onPath ++ liveable ++ [(pIdx 0 0x18, 1, 2), (0x1100, 0, 1)]),
     by unfold Accepts; decide +kernel⟩,
   ⟨sc [] (fun c => c.modCanc 31 (fun k => { k with phase := 5 })),
     by unfold Accepts; decide +kernel⟩,
   ⟨sc [] (fun c => c.modCanc 31 (fun k => { k with phase := 4 })),
     by decide +kernel⟩,
   ⟨sc [] (fun c => c.modCanc 0 (fun k => { k with phase := 1 })),
     by decide +kernel⟩⟩

/-- Meets the hypotheses of `Obligations.CorrelationAndRomChecks`. -/
theorem meets_correlation_and_rom_checks :
    (∃ s : State, (s.core.path 0).canc.window.window.isSome = true ∧ (s.core.path 0).canc.phase = 0 ∧
      (s.core.path 0).canc.window.sum ≤ (s.core.path 0).canc.window.count * tsOf (s.core.cfg.rate 0) ∧
      (s.core.path 0).canc.window.flags = 0) ∧
    (∃ s : State, (s.core.path 0).canc.window.window.isSome = true ∧ (s.core.path 0).canc.phase = 0 ∧
      (s.core.path 0).canc.window.sum ≤ (s.core.path 0).canc.window.count * tsOf (s.core.cfg.rate 0) ∧
      (s.core.path 0).canc.window.flags ≠ 0) ∧
    (∃ s : State, s.core.phase = .ready ∧ s.core.time.romNext ≤ s.core.now ∧ s.core.ent 0x2903 1 = 0) ∧
    (∃ s : State, s.core.phase = .ready ∧ s.core.time.romNext ≤ s.core.now ∧ s.core.ent 0x2903 1 ≠ 0) :=
  ⟨⟨sc onPath (fun c => c.modCanc 0 (fun k => { k with window := { k.window with window := some 3, count := 1 } })),
     by decide +kernel⟩,
   ⟨sc onPath (fun c => c.modCanc 0 (fun k => { k with window := { k.window with window := some 3, flags := 2 } })),
     by decide +kernel⟩,
   ⟨ready,
     by decide +kernel⟩,
   ⟨st [(0x2903, 1, 1)],
     by decide +kernel⟩⟩

/-- Meets the hypotheses of `Obligations.GuardTimersLift`. -/
theorem meets_guard_timers_lift :
    (∃ s : State, s.core.pe 31 0x20 4 = 3 ∧ s.core.latched = false ∧ s.core.reached (s.core.path 31).guard.oscLift = true) ∧
    (∃ s : State, s.core.latched = false ∧ s.core.reached s.core.guard.retryAt = true ∧ 0 ≤ s.core.cdb 0x3102 0 + 100) ∧
    (∃ s : State, s.core.latched = false ∧ s.core.reached s.core.guard.retryAt = true ∧ ¬ (0 ≤ s.core.cdb 0x3102 0 + 100)) ∧
    (∃ s : State, s.core.latched = false ∧ s.core.reached (s.core.path 0).guard.oobLift = true ∧
      s.core.cdb (pIdx 0 0x23) 3 < 0) ∧
    (∃ s : State, s.core.latched = false ∧ s.core.reached (s.core.path 0).guard.oobLift = true ∧
      ¬ (s.core.cdb (pIdx 0 0x23) 3 < 0) ∧ (s.core.path 0).guard.breach = false) :=
  ⟨⟨sc [(pIdx 31 0x20, 4, 3)] (fun c => c.modGuardPath 31 (fun g => { g with oscLift := some c.now })),
     by decide +kernel⟩,
   ⟨sc [(0x3102, 0, rawOf 16 (-100))] (fun c => { c with guard := { c.guard with retryAt := some c.now } }),
     by decide +kernel⟩,
   ⟨sc [(0x3102, 0, rawOf 16 (-101))] (fun c => { c with guard := { c.guard with retryAt := some c.now } }),
     by decide +kernel⟩,
   ⟨sc [(pIdx 0 0x23, 3, rawOf 16 (-1))] (fun c => c.modGuardPath 0 (fun g => { g with oobLift := some c.now })),
     by decide +kernel⟩,
   ⟨sc [] (fun c => c.modGuardPath 0 (fun g => { g with oobLift := some c.now })),
     by decide +kernel⟩⟩

/-- Meets the hypotheses of `Obligations.OverloadMoments`. -/
theorem meets_overload_moments :
    (∃ s : State, s.core.awake = true ∧ s.core.clock % 128 = 0 ∧ s.core.ent 0x2800 1 = 1 ∧
      s.core.ent 0x3120 1 ≤ (s.core.rfin 0).overRange ∧ s.core.ent 0x3121 1 = 0 ∧
      (s.core.rfin 0).run + 1 < s.core.ent 0x3120 2) ∧
    (∃ s : State, s.core.awake = true ∧ s.core.clock % 128 = 0 ∧ s.core.ent 0x2800 8 = 2 ∧
      s.core.ent 0x3120 1 ≤ (s.core.rfin 7).overRange ∧ s.core.ent 0x3121 8 = 0 ∧
      s.core.ent 0x3120 2 ≤ (s.core.rfin 7).run + 1) ∧
    (∃ s : State, s.core.awake = true ∧ s.core.clock % 128 = 0 ∧ s.core.ent 0x2800 1 = 1 ∧
      ¬ (s.core.ent 0x3120 1 ≤ (s.core.rfin 0).overRange) ∧ s.core.ent 0x3121 1 ≠ 0) ∧
    (∃ s : State, s.core.ent 0x3121 8 = 2 ∧ s.core.latched = false ∧ s.core.reached (s.core.rfin 7).releaseAt = true) :=
  ⟨⟨sc [(0x2800, 1, 1), (0x3120, 1, 4), (0x3120, 2, 3)] (fun c => c.setRfin 0 { c.rfin 0 with overRange := 4, run := 1 }),
     by decide +kernel⟩,
   ⟨sc [(0x2800, 8, 2), (0x3120, 1, 4), (0x3120, 2, 3)] (fun c => c.setRfin 7 { c.rfin 7 with overRange := 4, run := 2 }),
     by decide +kernel⟩,
   ⟨sc [(0x2800, 1, 1), (0x3120, 1, 4), (0x3121, 1, 1)] (fun c => c.setRfin 0 { c.rfin 0 with overRange := 3 }),
     by decide +kernel⟩,
   ⟨sc [(0x3121, 8, 2)] (fun c => c.setRfin 7 { c.rfin 7 with releaseAt := some c.now }),
     by decide +kernel⟩⟩

/-- Meets the hypotheses of `Obligations.OutOfBandChecks`. -/
theorem meets_out_of_band_checks :
    (∃ s : State, s.core.phase = .ready ∧ s.core.clock % 491520 = 0 ∧ s.core.receiverOn 0 = true ∧
      s.core.twin.dwellEnd = none ∧ s.core.checked 0 = []) ∧
    (∃ s : State, s.core.phase = .ready ∧ s.core.clock % 491520 = 0 ∧ s.core.receiverOn 0 = true ∧
      s.core.twin.dwellEnd = none ∧ s.core.checked 0 ≠ []) ∧
    (∃ s : State, s.core.receiverOn 0 = true ∧ s.core.ent 0x3110 2 ∈ s.core.cfg.rfouts 0 ∧
      (s.core.path 0).guard.unverified = false ∧ (s.core.path 0).guard.noValueSince = some (s.core.now - second) ∧
      (s.core.now - second) + s.core.ent 0x3110 3 * second ≤ s.core.now) :=
  ⟨⟨sc [(0x3110, 1, 1), (0x3110, 2, 0), (0x2800, 2, 3), (0x2803, 2, 7)] (fun c => { c with clock := 491520 }),
     by decide +kernel⟩,
   ⟨sc (onPath ++ [(0x3110, 1, 1), (0x3110, 2, 0), (0x2800, 2, 3), (0x2803, 2, 7), (pIdx 0 0x23, 1, 1), (0x110A, 0, 1), (pIdx 0 1, 1, 3)]) (fun c => { c with clock := 491520 }),
     by decide +kernel⟩,
   ⟨sc (onPath ++ [(0x3110, 1, 1), (0x3110, 2, 0), (0x2800, 2, 3), (0x2803, 2, 7), (0x3110, 3, 1)]) (fun c => c.modGuardPath 0 (fun g => { g with noValueSince := some (c.now - second) })),
     by decide +kernel⟩⟩

/-- Meets the hypotheses of `Obligations.ReflectedPowerMoments`. -/
theorem meets_reflected_power_moments :
    (∃ s : State, s.core.latched = false ∧ s.core.reached (s.core.refl 0).liftAt = true ∧ 0 ∈ s.core.cfg.boundTo 0) ∧
    (∃ s : State, s.core.latched = false ∧ s.core.reflBacked 0 = true ∧ (s.core.refl 0).liftAt = none ∧
      (s.core.refl 0).stale = false ∧ (s.core.refl 0).goodSince = some (s.core.now - second) ∧ (s.core.now - second) + second ≤ s.core.now ∧
      0 ∈ s.core.cfg.boundTo 0) ∧
    (∃ s : State, s.core.ent 0x3147 1 = 1 ∧ (s.core.refl 7).stale = false ∧
      (s.core.refl 7).lastFresh + 10 * ms ≤ s.core.now) :=
  ⟨⟨sc onPath (fun c => c.setRefl 0 { c.refl 0 with liftAt := some c.now }),
     by decide +kernel⟩,
   ⟨sc onPath (fun c => (c.setRefl 0 { c.refl 0 with goodSince := some (c.now - second) }).modGuardPath 0 (fun g => { g with reflBackoff := true })),
     by decide +kernel⟩,
   ⟨sc [(0x3147, 1, 1)] (fun c => c.setRefl 7 { c.refl 7 with lastFresh := c.now - 10 * ms }),
     by decide +kernel⟩⟩

/-- Meets the hypotheses of `Obligations.NetstopMoments`. -/
theorem meets_netstop_moments :
    (∃ s : State, s.core.awake = true ∧ s.core.ent 0x3103 3 = 0 ∧ s.core.ent 0x3103 1 = 1 ∧ s.core.latched = false) ∧
    (∃ s : State, s.core.awake = true ∧ s.core.ent 0x3103 3 = 1 ∧ s.core.guard.netAt < s.core.now ∧
      s.core.ent 0x3103 1 = 0 ∧ s.core.latched = false ∧ s.core.ent 0x5001 0 ≠ 2) ∧
    (∃ s : State, s.core.ent 0x3103 3 ≠ 0 ∧ s.core.ent 0x6121 0 = 1 ∧ s.core.guard.netAt + 10 * second ≤ s.core.now ∧
      s.core.latched = false) :=
  ⟨⟨st [(0x3103, 1, 1)],
     by decide +kernel⟩,
   ⟨st [(0x3103, 3, 1)],
     by decide +kernel⟩,
   ⟨st [(0x3103, 3, 2), (0x6121, 0, 1)],
     by decide +kernel⟩⟩

/-- Meets the hypotheses of `Obligations.LineStopWrites`. -/
theorem meets_line_stop_writes : ∃ s : State, Accepts s host 0x3104 1 (d8 0) ∧ Accepts s host 0x3104 1 (d8 1) ∧ Accepts s host 0x3104 1 (d8 2) ∧
    s.core.latched = false ∧ s.core.ent 0x5001 0 ≠ 2 :=
  ⟨ready, by unfold Accepts; decide +kernel⟩

/-- Meets the hypotheses of `Obligations.ModeRequests`. -/
theorem meets_mode_requests :
    (∃ s : State, Accepts s host 0x1101 0 (d8 0) ∧ s.core.ent 0x1100 0 = mIsolate) ∧
    (∃ s : State, Accepts s host 0x1101 0 (d8 2) ∧ s.core.ent 0x110C 0 = 1) ∧
    (∃ s : State, Accepts s host 0x1101 0 (d8 1) ∧ s.core.entBit 0x1106 0 6 = true) ∧
    (∃ s : State, Accepts s host 0x1101 0 (d8 0) ∧ s.core.ent 0x5102 0 = 4) ∧
    (∃ s : State, Accepts s host 0x1101 0 (d8 4) ∧ Accepts s host 0x1101 0 (d8 2) ∧ s.core.ent 0x1100 0 ≠ mIsolate ∧
      s.core.ent 0x110C 0 ≠ 1 ∧ s.core.entBit 0x1106 0 6 = false ∧ s.core.ent 0x5102 0 ≠ 4 ∧ s.core.latched = false ∧
      s.core.thermalDown = false ∧ s.core.guardStand = false ∧ s.core.ent 0x5001 0 ≠ 2) :=
  ⟨⟨st [(0x1100, 0, 5)],
     by unfold Accepts; decide +kernel⟩,
   ⟨st [(0x110C, 0, 1)],
     by unfold Accepts; decide +kernel⟩,
   ⟨st [(0x1106, 0, 64)],
     by unfold Accepts; decide +kernel⟩,
   ⟨st [(0x5102, 0, 4)],
     by unfold Accepts; decide +kernel⟩,
   ⟨ready,
     by unfold Accepts; decide +kernel⟩⟩

/-- Meets the hypotheses of `Obligations.QualifiedRestart`. -/
theorem meets_qualified_restart :
    (∃ s : State, Accepts s host 0x1103 4 (d16 0) ∧ s.core.ent 0x1100 0 ≠ mIsolate) ∧
    (∃ s : State, Accepts s host 0x1103 4 (d16 6) ∧ s.core.ent 0x1100 0 = mIsolate ∧ 6 ≠ s.core.ent 0x1103 1) ∧
    (∃ s : State, Accepts s host 0x1103 4 (d16 7) ∧ s.core.ent 0x1100 0 = mIsolate ∧ 7 = s.core.ent 0x1103 1 ∧
      s.core.causeClear = false) ∧
    (∃ s : State, Accepts s host 0x1103 4 (d16 0xFFFF) ∧ s.core.ent 0x1100 0 = mIsolate ∧ 0xFFFF = s.core.ent 0x1103 1 ∧
      s.core.causeClear = true ∧ s.core.thermalDown = false ∧ s.core.guardStand = false ∧ s.core.ent 0x5001 0 ≠ 2) :=
  ⟨⟨ready,
     by unfold Accepts; decide +kernel⟩,
   ⟨st [(0x1100, 0, 5), (0x1103, 1, 7)],
     by unfold Accepts; decide +kernel⟩,
   ⟨sc [(0x1100, 0, 5), (0x1103, 1, 7), (0x3103, 3, 1)] (fun c => { c with latched := true, guard := { c.guard with latchCause := 0x70C } }),
     by unfold Accepts; decide +kernel⟩,
   ⟨sc [(0x1100, 0, 5), (0x1103, 1, 0xFFFF)] (fun c => { c with latched := true }),
     by unfold Accepts; decide +kernel⟩⟩

/-- Meets the hypotheses of `Obligations.FullResets`. -/
theorem meets_full_resets :
    (∃ s : State, s.core.phase = .held ∧ s.nv.unit = none ∧ s.core.persist = []) ∧
    (∃ s : State, s.core.phase ≠ .held ∧ s.core.supply.save = none) ∧
    (∃ s : State, s.core.phase ≠ .held ∧ s.core.supply.save ≠ none ∧ s.core.twin.resetHold = true) ∧
    (∃ s : State, s.core.twin.resetHold = true ∧ s.core.supply.save = none) :=
  ⟨⟨sc [] (fun c => { c with phase := .held }),
     by decide +kernel⟩,
   ⟨ready,
     by decide +kernel⟩,
   ⟨sc [] (fun c => { c with supply := { c.supply with save := some saving } , twin := { c.twin with resetHold := true } }),
     by decide +kernel⟩,
   ⟨sc [] (fun c => { c with twin := { c.twin with resetHold := true } }),
     by decide +kernel⟩⟩

/-- Meets the hypotheses of `Obligations.ResetCommands`. -/
theorem meets_reset_commands :
    (∃ s : State, Accepts s host 0x1108 0 (d16 0xC1A5) ∧ Accepts s host 0x1108 0 (d16 0xC1A4)) ∧
    (∃ s : State, Accepts s host 0x1108 0 (d16 0xC1A5) ∧ s.book.opened = true ∧ s.book.frozen ≠ none) :=
  ⟨⟨ready,
     by unfold Accepts; decide +kernel⟩,
   ⟨{ ready with book := { ready.book with opened := true, frozen := some 8 } },
     by unfold Accepts; decide +kernel⟩⟩

/-- Meets the hypotheses of `Obligations.StartUp`. -/
theorem meets_start_up :
    (∃ s : State, s.core.phase = .released) ∧
    (∃ s : State, s.core.phase = .locked ∧ s.core.ent 0x110B 0 = 2 ∧ s.core.ent 0x110C 0 = 1 ∧ s.core.latched = false) ∧
    (∃ s : State, s.core.phase = .locked ∧ s.core.ent 0x110B 0 ≠ 2 ∧ s.core.latched = false ∧
      s.core.entBit 0x1106 0 6 = false) :=
  ⟨⟨sc [] (fun c => { c with phase := .released }),
     by decide +kernel⟩,
   ⟨sc [(0x110B, 0, 2), (0x110C, 0, 1)] (fun c => { c with phase := .locked }),
     by decide +kernel⟩,
   ⟨sc [(0x110B, 0, 4)] (fun c => { c with phase := .locked }),
     by decide +kernel⟩⟩

/-- Meets the hypotheses of `Obligations.ImageSlots`. -/
theorem meets_image_slots :
    (∃ s : State, Accepts s host 0x1112 0 (d8 1) ∧ s.nv.job ≠ none) ∧
    (∃ s : State, Accepts s host 0x1112 0 (d8 1) ∧ s.nv.job = none ∧ s.nextEpoch ≠ 0xFFFFFFFF) ∧
    (∃ s : State, s.nv.job = some ⟨1, [1, 2], 1⟩ ∧ ([1, 2] : List Byte).length ≤ 256 * 1) ∧
    (∃ s : State, Accepts s host 0x1115 0 (d8 2) ∧ 2 = s.core.ent 0x1111 1) ∧
    (∃ s : State, Accepts s host 0x1115 0 (d8 2) ∧ s.nv.job = some ⟨2, [1, 2], 1⟩) ∧
    (∃ s : State, Accepts s host 0x1115 0 (d8 1) ∧ 1 ≠ s.core.ent 0x1111 1 ∧ s.nv.job = none) :=
  ⟨⟨{ ready with nv := { ready.nv with job := some ⟨1, [1, 2], 1⟩ } },
     by unfold Accepts; decide +kernel⟩,
   ⟨ready,
     by unfold Accepts; decide +kernel⟩,
   ⟨{ ready with nv := { ready.nv with job := some ⟨1, [1, 2], 1⟩, slotA := [1, 2] } },
     by decide +kernel⟩,
   ⟨st [(0x1111, 1, 2)],
     by unfold Accepts; decide +kernel⟩,
   ⟨{ ready with nv := { ready.nv with job := some ⟨2, [1, 2], 1⟩ } },
     by unfold Accepts; decide +kernel⟩,
   ⟨st [(0x1111, 1, 2)],
     by unfold Accepts; decide +kernel⟩⟩

/-- Meets the hypotheses of `Obligations.HourAndLock`. -/
theorem meets_hour_and_lock :
    (∃ s : State, s.core.awake = true ∧ s.core.entBit 0x1201 0 0 = true) ∧
    (∃ s : State, s.core.awake = true ∧ s.core.entBit 0x1201 0 0 = false) :=
  ⟨⟨st [(0x1201, 0, 1)],
     by decide +kernel⟩,
   ⟨ready,
     by decide +kernel⟩⟩

/-- Meets the hypotheses of `Obligations.ThermalReading`. -/
theorem meets_thermal_reading : ∃ s : State, s.core.awake = true ∧ s.core.clock % 491520 = 0 :=
  ⟨sc [] (fun c => { c with clock := 491520 }), by decide +kernel⟩

/-- Meets the hypotheses of `Obligations.ThermalLadder`. -/
theorem meets_thermal_ladder :
    (∃ s : State, s.core.ladderAdvances = true ∧ s.core.ent 0x6004 0 = 0) ∧
    (∃ s : State, s.core.ladderAdvances = true ∧ s.core.ent 0x6004 0 = 1) ∧
    (∃ s : State, s.core.ladderAdvances = true ∧ s.core.ent 0x6004 0 = 2 ∧ s.core.nextShed = some 0) ∧
    (∃ s : State, s.core.ladderAdvances = true ∧ s.core.ent 0x6004 0 = 3 ∧ s.core.nextShed = none) ∧
    (∃ s : State, s.core.ladderRetreats = true ∧ s.core.ent 0x6004 0 = 1) ∧
    (∃ s : State, s.core.ladderRetreats = true ∧ s.core.ent 0x6004 0 = 2) ∧
    (∃ s : State, s.core.ladderRetreats = true ∧ s.core.ent 0x6004 0 = 3 ∧ s.core.therm.shed = 0 :: []) ∧
    (∃ s : State, s.core.ladderRetreats = true ∧ s.core.ent 0x6004 0 = 4) :=
  ⟨⟨st [(0x6000, 0, 2), (0x6001, 0, 3)],
     by decide +kernel⟩,
   ⟨st [(0x6000, 0, 2), (0x6001, 0, 3), (0x6004, 0, 1)],
     by decide +kernel⟩,
   ⟨st [(0x6000, 0, 2), (0x6001, 0, 3), (0x6004, 0, 2), (0x110A, 0, 1)],
     by decide +kernel⟩,
   ⟨st [(0x6000, 0, 2), (0x6001, 0, 3), (0x6004, 0, 3)],
     by decide +kernel⟩,
   ⟨st [(0x6004, 0, 1)],
     by decide +kernel⟩,
   ⟨st [(0x6004, 0, 2)],
     by decide +kernel⟩,
   ⟨sc [(0x6004, 0, 3), (0x6005, 0, 1)] (fun c => { c with therm := { c.therm with shed := [0] } }),
     by decide +kernel⟩,
   ⟨st [(0x6004, 0, 4)],
     by decide +kernel⟩⟩

/-- Meets the hypotheses of `Obligations.BookFreezing`. -/
theorem meets_book_freezing :
    (∃ s : State, Accepts s host 0x6410 0 (d8 1) ∧ Accepts s host 0x6410 0 (d8 0) ∧ s.book.frozen = none) ∧
    (∃ s : State, Accepts s host 0x6410 0 (d8 1) ∧ Accepts s host 0x6410 0 (d8 0) ∧ s.book.frozen ≠ none ∧
      s.book.frozen = some s.core.now) :=
  ⟨⟨ready,
     by unfold Accepts; decide +kernel⟩,
   ⟨{ ready with book := { ready.book with frozen := some ready.core.now } },
     by unfold Accepts; decide +kernel⟩⟩

/-- Meets the hypotheses of `Obligations.UnitsComplete`. -/
theorem meets_units_complete :
    (∃ s : State, s.core.supply.save = none ∧ s.book.drainBy = none ∧ s.nv.unit = some (.book aRecord)) ∧
    (∃ s : State, s.core.supply.save = none ∧ s.book.drainBy = none ∧ s.nv.unit = some (.restored aRecord.bytes)) ∧
    (∃ s : State, s.core.supply.save = none ∧ s.book.drainBy = none ∧ s.nv.unit = some (.persist [(entKey 0x1120 0, 2)]) ∧
      entKey 0x1120 0 < rosterKey 0) ∧
    (∃ s : State, s.core.supply.save = none ∧ s.book.drainBy = none ∧ s.nv.unit = some (.persist [(rosterKey 0, 2)]) ∧
      rosterKey 0 ≤ rosterKey 0) ∧
    (∃ s : State, s.core.supply.save = none ∧ s.book.drainBy = none ∧ s.nv.unit = some (.image 1 0 [1, 2]) ∧
      s.nv.job = some ⟨1, [1, 2], 0⟩) ∧
    (∃ s : State, s.core.supply.save = none ∧ s.book.drainBy = none ∧ s.nv.unit = some (.image 2 0 [1, 2]) ∧
      s.nv.job = some ⟨2, [1, 2], 0⟩) ∧
    (∃ s : State, s.core.supply.save = none ∧ s.book.drainBy = none ∧ s.nv.unit = some (.erase 1)) ∧
    (∃ s : State, s.core.supply.save = none ∧ s.book.drainBy = none ∧ s.nv.unit = some (.supersede 3)) ∧
    (∃ s : State, s.core.supply.save = none ∧ s.book.drainBy = none ∧ s.nv.unit = some (.calibration 31 true none) ∧
      s.core.cal = (31, 1, none) :: []) ∧
    (∃ s : State, s.core.supply.save = none ∧ s.book.drainBy = none ∧ s.nv.unit = some (.calibration 0 false none) ∧
      s.core.cal = (0, 5, none) :: []) :=
  ⟨⟨{ ready with nv := { ready.nv with unit := some (.book aRecord) } },
     by decide +kernel⟩,
   ⟨{ ready with nv := { ready.nv with unit := some (.restored aRecord.bytes) } },
     by decide +kernel⟩,
   ⟨{ ready with nv := { ready.nv with unit := some (.persist [(entKey 0x1120 0, 2)]) } },
     by decide +kernel⟩,
   ⟨{ ready with nv := { ready.nv with unit := some (.persist [(rosterKey 0, 2)]) } },
     by decide +kernel⟩,
   ⟨{ ready with nv := { ready.nv with unit := some (.image 1 0 [1, 2]), job := some ⟨1, [1, 2], 0⟩ } },
     by decide +kernel⟩,
   ⟨{ ready with nv := { ready.nv with unit := some (.image 2 0 [1, 2]), job := some ⟨2, [1, 2], 0⟩ } },
     by decide +kernel⟩,
   ⟨{ ready with nv := { ready.nv with unit := some (.erase 1), erasing := [1] } },
     by decide +kernel⟩,
   ⟨{ ready with nv := { ready.nv with unit := some (.supersede 3), superseding := some 3 } },
     by decide +kernel⟩,
   ⟨{ sc [] (fun c => { c with cal := [(31, 1, none)] }) with nv := { ready.nv with unit := some (.calibration 31 true none) } },
     by decide +kernel⟩,
   ⟨{ sc [] (fun c => { c with cal := [(0, 5, none)] }) with nv := { ready.nv with unit := some (.calibration 0 false none) } },
     by decide +kernel⟩⟩

/-- Meets the hypotheses of `Obligations.HoldUpSave`. -/
theorem meets_hold_up_save :
    (∃ s : State, s.core.supply.save = some saving ∧ s.book.drainBy = none ∧ s.nv.unit = some (.save 79) ∧ 79 ≠ 80 ∧
      s.core.thermalDown = false) ∧
    (∃ s : State, s.core.supply.save = some saving ∧ s.book.drainBy = none ∧ s.nv.unit = some (.save 80) ∧
      s.core.supply.browned = false ∧ s.core.supply.heldReset = none) ∧
    (∃ s : State, s.core.supply.save = some saving ∧ s.book.drainBy = none ∧ s.nv.unit = some (.save 80) ∧
      s.core.supply.browned = true) :=
  ⟨⟨{ sc [] (fun c => { c with supply := { c.supply with save := some saving } }) with nv := { ready.nv with unit := some (.save 79) } },
     by decide +kernel⟩,
   ⟨{ sc [] (fun c => { c with supply := { c.supply with save := some saving } }) with nv := { ready.nv with unit := some (.save 80) } },
     by decide +kernel⟩,
   ⟨{ sc [] (fun c => { c with supply := { c.supply with save := some saving, browned := true } }) with nv := { ready.nv with unit := some (.save 80) } },
     by decide +kernel⟩⟩

/-- Meets the hypotheses of `Obligations.SagEpisodes`. -/
theorem meets_sag_episodes :
    (∃ s : State, s.core.phase ≠ .held ∧ s.core.supply.episodeAt = none ∧ s.core.thermalDown = false ∧
      s.core.supply.save = none) ∧
    (∃ s : State, s.core.phase ≠ .held ∧ s.core.supply.episodeAt ≠ none ∧ s.core.mayRecover = true ∧
      s.core.supply.episodeAt = some 5) ∧
    (∃ s : State, s.core.phase ≠ .held ∧ s.core.supply.save ≠ none) :=
  ⟨⟨ready,
     by decide +kernel⟩,
   ⟨sc [] (fun c => { c with supply := { c.supply with episodeAt := some 5 } }),
     by decide +kernel⟩,
   ⟨sc [] (fun c => { c with supply := { c.supply with save := some saving } }),
     by decide +kernel⟩⟩

/-- Meets the hypotheses of `Obligations.SupplyReadings`. -/
theorem meets_supply_readings :
    (∃ s : State, s.core.awake = true ∧ s.core.ent 0x6121 0 = 1 ∧ s.core.ent 0x4810 1 = 1) ∧
    (∃ s : State, s.core.awake = true ∧ s.core.ent 0x6121 0 = 0 ∧ s.core.ent 0x3103 3 ≠ 0) :=
  ⟨⟨st [(0x6121, 0, 1), (0x4810, 1, 1)],
     by decide +kernel⟩,
   ⟨st [(0x3103, 3, 1)],
     by decide +kernel⟩⟩

/-- Meets the hypotheses of `Obligations.TimeSources`. -/
theorem meets_time_sources :
    (∃ s : State, s.core.awake = true ∧ s.core.entBit 0x1201 0 0 = true ∧ s.core.canQualify 2 = true ∧
      2 ∉ s.core.time.qualified ∧ s.core.bestSource (s.core.time.qualified ++ [2]) = 2 ∧ s.core.timeUncommon = true ∧
      16 ≤ s.core.time.inPhase ∧ s.core.ent 0x110A 0 = 0) ∧
    (∃ s : State, s.core.awake = true ∧ s.core.entBit 0x1201 0 0 = true ∧ s.core.canQualify 2 = true ∧
      2 ∈ s.core.time.qualified ∧ (s.core.timeUncommon = true → 16 ≤ s.core.time.inPhase)) ∧
    (∃ s : State, s.core.awake = true ∧ 1 ∈ s.core.time.qualified ∧ s.core.ent 0x1222 0 = 1 ∧
      s.core.bestSource (s.core.time.qualified.filter (· ≠ 1)) = 0 ∧ s.core.ent 0x1221 0 = 2) ∧
    (∃ s : State, s.core.awake = true ∧ 1 ∈ s.core.time.qualified ∧ s.core.ent 0x1222 0 ≠ 1 ∧ 2 ∉ s.core.time.qualified) ∧
    (∃ s : State, s.core.ent 0x1221 0 = 3 ∧ s.core.reached s.core.time.holdoverAt = true) :=
  ⟨⟨sc [(0x1201, 0, 1), (0x1223, 1, 2)] (fun c => { c with time := { c.time with ppsAccepted := 8, inPhase := 16 } }),
     by decide +kernel⟩,
   ⟨sc [(0x1201, 0, 1), (0x1223, 1, 2)] (fun c => { c with time := { c.time with ppsAccepted := 8, inPhase := 16, qualified := [2] } }),
     by decide +kernel⟩,
   ⟨sc [(0x1221, 0, 2), (0x1222, 0, 1)] (fun c => { c with time := { c.time with qualified := [1] } }),
     by decide +kernel⟩,
   ⟨sc [(0x1222, 0, 3)] (fun c => { c with time := { c.time with qualified := [1, 3] } }),
     by decide +kernel⟩,
   ⟨sc [(0x1221, 0, 3)] (fun c => { c with time := { c.time with holdoverAt := some c.now } }),
     by decide +kernel⟩⟩

/-- Meets the hypotheses of `Obligations.TimeSetting`. -/
theorem meets_time_setting :
    (∃ s : State, Accepts s host 0x1227 2 (d8 1) ∧ Accepts s host 0x1227 2 (d8 2) ∧ s.core.ent 0x110A 0 = 0) ∧
    (∃ s : State, Accepts s host 0x1227 2 (d8 2) ∧ s.core.ent 0x110A 0 ≠ 0) ∧
    (∃ s : State, s.core.reached s.core.time.setDeadline = true) :=
  ⟨⟨ready,
     by unfold Accepts; decide +kernel⟩,
   ⟨st [(0x110A, 0, 1)],
     by unfold Accepts; decide +kernel⟩,
   ⟨sc [] (fun c => { c with time := { c.time with setDeadline := some c.now } }),
     by decide +kernel⟩⟩

/-- Meets the hypotheses of `Obligations.PulsePerSecond`. -/
theorem meets_pulse_per_second :
    (∃ s : State, s.core.awake = true ∧ 2 ∈ s.core.sourceOrder ∧ s.core.time.ppsLast = some 5000 ∧
      (s.core.ent 0x122B 0 : Int) < fromSecond ((s.core.clock : Int) - s.core.entS 16 0x122C 0 - 5000)) ∧
    (∃ s : State, s.core.awake = true ∧ 2 ∈ s.core.sourceOrder ∧ s.core.time.ppsLast = some 5000 ∧
      ¬ ((s.core.ent 0x122B 0 : Int) < fromSecond ((s.core.clock : Int) - s.core.entS 16 0x122C 0 - 5000)) ∧
      ¬ (fromSecond ((s.core.clock : Int) - s.core.entS 16 0x122C 0 - 5000) < -(s.core.ent 0x122B 0 : Int)) ∧
      s.core.time.ppsLast ≠ some (wrapClock ((s.core.clock : Int) - s.core.entS 16 0x122C 0)) ∧
      s.core.time.setDeadline = none) ∧
    (∃ s : State, s.core.awake = true ∧ s.core.time.setDeadline ≠ none ∧ s.core.time.ppsLast = none) ∧
    (∃ s : State, s.core.awake = true ∧ 2 ∈ s.core.sourceOrder ∧
      s.core.time.ppsLast = some (wrapClock ((s.core.clock : Int) - s.core.entS 16 0x122C 0))) ∧
    (∃ s : State, s.core.time.ppsLast = some 5000 ∧
      ((5000 + 3 * second + s.core.ent 0x122B 0 : Nat) : Int) < (s.core.clock : Int) - s.core.entS 16 0x122C 0) ∧
    (∃ s : State, s.core.awake = true ∧ s.core.entBit 0x122D 0 0 = true ∧ s.core.entBit 0x122D 0 1 = true ∧
      ((s.core.clock : Int) - s.core.entS 32 0x122E 0) % 491520000 = 0) ∧
    (∃ s : State, s.core.reached s.core.time.ppsFall = true) :=
  ⟨⟨sc [(0x1223, 1, 2), (0x122B, 0, 100)] (fun c => { c with clock := 491520000 + 5101, time := { c.time with ppsLast := some 5000 } }),
     by decide +kernel⟩,
   ⟨sc [(0x1223, 1, 2), (0x122B, 0, 100)] (fun c => { c with clock := 491520000 + 5100, time := { c.time with ppsLast := some 5000 } }),
     by decide +kernel⟩,
   ⟨sc [] (fun c => { c with time := { c.time with setDeadline := some (c.now + 1) } }),
     by decide +kernel⟩,
   ⟨sc [(0x1223, 1, 2)] (fun c => { c with time := { c.time with ppsLast := some 5120 } }),
     by decide +kernel⟩,
   ⟨sc [(0x1223, 1, 2)] (fun c => { c with clock := 491520000 * 9, time := { c.time with ppsLast := some 5000, qualified := [2] } }),
     by decide +kernel⟩,
   ⟨st [(0x122E, 0, 5120), (0x122D, 0, 3)],
     by decide +kernel⟩,
   ⟨sc [] (fun c => { c with time := { c.time with ppsFall := some c.now } }),
     by decide +kernel⟩⟩

/-- Meets the hypotheses of `Obligations.ReftuneAndSlack`. -/
theorem meets_reftune_and_slack :
    (∃ s : State, s.core.awake = true ∧ s.core.time.reftuneNext ≤ s.core.now ∧ s.core.ent 0x1230 1 = 2) ∧
    (∃ s : State, s.core.awake = true ∧ s.core.time.reftuneNext ≤ s.core.now ∧ s.core.ent 0x1230 1 = 0) ∧
    (∃ s : State, s.core.awake = true ∧ s.core.time.reftuneNext ≤ s.core.now ∧ s.core.ent 0x1230 1 = 1) ∧
    (∃ s : State, s.core.awake = true ∧ s.core.clock % 491520 = 0 ∧ (s.core.path 31).lateWindow ≠ 0) :=
  ⟨⟨st [(0x1230, 1, 2)],
     by decide +kernel⟩,
   ⟨st [(0x1230, 1, 0)],
     by decide +kernel⟩,
   ⟨st [(0x1230, 1, 1)],
     by decide +kernel⟩,
   ⟨sc [] (fun c => { c.setPath 31 { c.path 31 with lateWindow := 4 } with clock := 491520 }),
     by decide +kernel⟩⟩

/-- Meets the hypotheses of `Obligations.LoWrites`. -/
theorem meets_lo_writes :
    (∃ s : State, Accepts s host 0x1210 1 (d32 2000000) ∧ s.core.shared = false ∧ s.core.loBusy 0 = true) ∧
    (∃ s : State, Accepts s host 0x1211 1 (d32 2000000) ∧ Accepts s host 0x1211 1 (d32 0) ∧ s.core.shared = false ∧
      s.core.loBusy 1 = false ∧ Accepts s host 0x1211 6 (d8 1) ∧ (s.core.lo 1).freq = 0) ∧
    (∃ s : State, Accepts s host 0x1210 6 (d8 1) ∧ (s.core.lo 0).freq ≠ 0 ∧ s.core.loBusy 0 = true) ∧
    (∃ s : State, Accepts s host 0x1210 6 (d8 1) ∧ (s.core.lo 0).freq ≠ 0 ∧ s.core.loBusy 0 = false) :=
  ⟨⟨sc [(0x1210, 3, 4)] (fun c => c.setLo 0 { c.lo 0 with freq := 2000000 }),
     by unfold Accepts; decide +kernel⟩,
   ⟨ready,
     by unfold Accepts; decide +kernel⟩,
   ⟨sc [(0x1210, 3, 2)] (fun c => c.setLo 0 { c.lo 0 with freq := 2000000 }),
     by unfold Accepts; decide +kernel⟩,
   ⟨sc [(0x1210, 3, 1)] (fun c => c.setLo 0 { c.lo 0 with freq := 2000000 }),
     by unfold Accepts; decide +kernel⟩⟩

/-- Meets the hypotheses of `Obligations.LoMoments`. -/
theorem meets_lo_moments :
    (∃ s : State, s.core.awake = true ∧ (s.core.lo 0).freq ≠ 0 ∧ s.core.entBit 0x1210 3 0 = false ∧
      s.core.entBit 0x1210 3 1 = true ∧ (s.core.lo 0).held = none ∧ (s.core.lo 0).calPending = false ∧
      s.core.reached (s.core.lo 0).deadline = true) ∧
    (∃ s : State, s.core.awake = true ∧ (s.core.lo 1).freq ≠ 0 ∧ s.core.entBit 0x1211 3 0 = false ∧
      (s.core.lo 1).held = some 1) ∧
    (∃ s : State, s.core.awake = true ∧ (s.core.lo 1).freq ≠ 0 ∧ s.core.entBit 0x1211 3 0 = false ∧
      (s.core.lo 1).held = none ∧ (s.core.lo 1).calPending = true) ∧
    (∃ s : State, s.core.awake = true ∧ s.core.entBit 0x1211 3 0 = true) :=
  ⟨⟨sc [(0x1210, 3, 2)] (fun c => c.setLo 0 { c.lo 0 with freq := 2000000, deadline := some c.now }),
     by decide +kernel⟩,
   ⟨sc [(0x1211, 3, 4)] (fun c => c.setLo 1 { c.lo 1 with freq := 2000000, held := some 1 }),
     by decide +kernel⟩,
   ⟨sc [(0x1211, 3, 4)] (fun c => c.setLo 1 { c.lo 1 with freq := 2000000, calPending := true }),
     by decide +kernel⟩,
   ⟨st [(0x1211, 3, 1)],
     by decide +kernel⟩⟩

/-- Meets the hypotheses of `Obligations.HousekeepingTriggers`. -/
theorem meets_housekeeping_triggers :
    (∃ s : State, s.core.hkFires 3 = true ∧ s.core.hkState 3 = 0) ∧
    (∃ s : State, s.core.hkFires 3 = true ∧ s.core.hkState 3 = 0 ∧ s.core.hk.run = some ⟨0, [3], 0, none, false⟩ ∧
      s.core.hk.slot = some ⟨.value, 3, s.core.now - 1, 4⟩ ∧ s.core.now - 1 < s.core.now) ∧
    (∃ s : State, s.core.hkFires 3 = true ∧ s.core.hkState 3 = 2) ∧
    (∃ s : State, s.core.hkFires 3 = true ∧ s.core.hkState 3 = 3) ∧
    (∃ s : State, Accepts s host 0x6210 8 (d8 1) ∧ s.core.ent 0x6210 1 = 0 ∧ s.core.hk.run = none) ∧
    (∃ s : State, Accepts s host 0x6210 8 (d8 1) ∧ s.core.ent 0x6210 1 ≠ 0 ∧ s.core.hk.run = none) ∧
    (∃ s : State, s.core.hk.run = some ⟨0, [], 0, none, false⟩ ∧ s.core.hkRunDone = true ∧ s.core.hkState 0 ≠ 3) ∧
    (∃ s : State, s.core.hk.run = some ⟨3, [], 0, none, false⟩ ∧ s.core.hkRunDone = true ∧ s.core.hkState 3 = 3) ∧
    (∃ s : State, Accepts s host 0x6203 1 (d8 58) ∧ s.core.hk.urgent.length < 4 ∧ s.core.hk.run = none ∧
      Accepts s host 0x6222 0 (d16 7) ∧ s.core.hk.slot = none ∧ s.core.ent 0x6220 4 ≠ 4096) ∧
    (∃ s : State, Accepts s host 0x6222 0 (d16 7) ∧ s.core.hk.slot = some ⟨.value, 3, s.core.now, 4⟩ ∧
      s.core.now ≤ s.core.now) ∧
    (∃ s : State, Accepts s host 0x6203 1 (d8 0) ∧ 4 ≤ s.core.hk.urgent.length ∧ Accepts s host 0x6222 0 (d16 0) ∧
      s.core.ent 0x6220 4 = 4096) :=
  ⟨⟨st [(0x6213, 1, 2), (0x6213, 2, 512)],
     by decide +kernel⟩,
   ⟨sc [(0x6213, 1, 2), (0x6213, 2, 512)] (fun c => { c with hk := { c.hk with run := some ⟨0, [3], 0, none, false⟩, slot := some ⟨.value, 3, c.now - 1, 4⟩ } }),
     by decide +kernel⟩,
   ⟨st [(0x6213, 1, 2), (0x6213, 2, 512), (0x6213, 5, 2)],
     by decide +kernel⟩,
   ⟨st [(0x6213, 1, 2), (0x6213, 2, 512), (0x6213, 5, 3)],
     by decide +kernel⟩,
   ⟨ready,
     by unfold Accepts; decide +kernel⟩,
   ⟨st [(0x6210, 1, 1)],
     by unfold Accepts; decide +kernel⟩,
   ⟨sc [(0x6210, 5, 2)] (fun c => { c with hk := { c.hk with run := some ⟨0, [], 0, none, false⟩ } }),
     by decide +kernel⟩,
   ⟨sc [(0x6213, 5, 3)] (fun c => { c with hk := { c.hk with run := some ⟨3, [], 0, none, false⟩ } }),
     by decide +kernel⟩,
   ⟨ready,
     by unfold Accepts; decide +kernel⟩,
   ⟨sc [] (fun c => { c with hk := { c.hk with slot := some ⟨.value, 3, c.now, 4⟩ } }),
     by unfold Accepts; decide +kernel⟩,
   ⟨sc [(0x6220, 4, 4096)] (fun c => { c with hk := { c.hk with urgent := [1, 2, 3, 4] } }),
     by unfold Accepts; decide +kernel⟩⟩

/-- Meets the hypotheses of `Obligations.HousekeepingConversion`. -/
theorem meets_housekeeping_conversion :
    (∃ s : State, s.core.hk.slot = some ⟨.urgent, 58, 9, s.core.now - 244⟩ ∧ s.core.now - 244 + 244 ≤ s.core.now) ∧
    (∃ s : State, s.core.hk.slot = some ⟨.value, 32, 9, 4⟩ ∧ 4 + 244 ≤ s.core.now ∧ s.core.hk.run ≠ none ∧
      s.core.ent 0x6121 0 = 0) ∧
    (∃ s : State, s.core.hk.slot = some ⟨.check, 47, 9, 4⟩ ∧ 4 + 244 ≤ s.core.now ∧
      s.core.hk.run = some ⟨0, [47], 0, none, false⟩ ∧ stepCurrent 47 ≠ 1 ∧ hkCode 47 0 ≤ s.core.ent 0x6202 2) ∧
    (∃ s : State, s.core.hk.slot = some ⟨.check, 3, 9, 4⟩ ∧ s.core.hk.run = some ⟨0, [3], 0, none, false⟩ ∧
      ¬ (hkCode 3 2000000 ≤ s.core.ent 0x6202 2) ∧ 1 ≤ s.core.hk.connected.get (fun _ => 0) 3 ∧
      s.core.entBit 0x6231 4 1 = true) :=
  ⟨⟨sc [] (fun c => { c with hk := { c.hk with slot := some ⟨.urgent, 58, 9, c.now - 244⟩ } }),
     by decide +kernel⟩,
   ⟨sc [] (fun c => { c with hk := { c.hk with slot := some ⟨.value, 32, 9, 4⟩, run := some ⟨0, [32], 0, none, false⟩ } }),
     by decide +kernel⟩,
   ⟨sc [(0x6121, 0, 1), (0x6202, 2, 0xFFFF)] (fun c => { c with hk := { c.hk with slot := some ⟨.check, 47, 9, 4⟩, run := some ⟨0, [47], 0, none, false⟩ } }),
     by decide +kernel⟩,
   ⟨sc [(0x6121, 0, 1), (0x6202, 2, 0), (0x6231, 4, 2)] (fun c => { c with hk := { c.hk with slot := some ⟨.check, 3, 9, 4⟩, run := some ⟨0, [3], 0, none, false⟩, connected := [(3, 1)] } }),
     by decide +kernel⟩⟩

/-- Meets the hypotheses of `Obligations.TwoWireBus`. -/
theorem meets_two_wire_bus :
    (∃ s : State, s.core.phase = .ready ∧ s.core.twState 3 = 1 ∧ (s.core.twc 3).checked = false ∧
      (s.core.twc 3).checkAt ≤ s.core.now) ∧
    (∃ s : State, s.core.twState 0 = 2 ∧ (s.core.twc 0).highAt + s.core.ent 0x6300 3 * ms < s.core.now) ∧
    (∃ s : State, s.core.twState 0 = 4) :=
  ⟨⟨st [(0x6323, 1, 1)],
     by decide +kernel⟩,
   ⟨st [(0x6320, 1, 2)],
     by decide +kernel⟩,
   ⟨st [(0x6320, 1, 4)],
     by decide +kernel⟩⟩

/-- Meets the hypotheses of `Obligations.TwoWireTransfers`. -/
theorem meets_two_wire_transfers :
    (∃ s : State, Accepts s host 0x6310 5 (d8 1) ∧ s.core.ent 0x6310 5 = 1) ∧
    (∃ s : State, Accepts s host 0x6313 5 (d8 1) ∧ s.core.ent 0x6313 5 ≠ 1 ∧ s.core.twState 3 = 0) ∧
    (∃ s : State, Accepts s host 0x6313 5 (d8 1) ∧ s.core.ent 0x6313 5 ≠ 1 ∧ s.core.twState 3 = 1 ∧
      (s.core.twc 3).running = some .host ∧ TwItem.host ∉ (s.core.twc 3).queue ∧
      (s.core.twc 3).over (.done [5]) s.core.now = true ∧ (s.core.twc 3).over .addressNack s.core.now = true ∧
      (s.core.twc 3).over (.dataNack 2) s.core.now = true ∧ (s.core.twc 3).over (.busError 1 2 false) s.core.now = true) :=
  ⟨⟨st [(0x6310, 5, 1)],
     by unfold Accepts; decide +kernel⟩,
   ⟨ready,
     by unfold Accepts; decide +kernel⟩,
   ⟨sc [(0x6323, 1, 1)] (fun c => c.setTwc 3 { c.twc 3 with on := true, running := some .host, wire := some (4, List.replicate 20 true) }),
     by unfold Accepts; decide +kernel⟩⟩

/-- Meets the hypotheses of `Obligations.TwoWireRecovery`. -/
theorem meets_two_wire_recovery :
    (∃ s : State, s.core.twState 0 = 3 ∧ s.core.twState 3 = 3 ∧ s.core.entBit 0x6320 2 2 = false ∧
      (s.core.twc 0).clocked (nineClocksOf 4 true) s.core.now = true ∧
      (s.core.twc 0).clocked (nineClocksOf 9 false) s.core.now = true) ∧
    (∃ s : State, s.core.twState 0 = 5 ∧ s.core.reached (s.core.twc 0).retryAt = true ∧
      (s.core.twc 0).clocked (nineClocksOf 9 false) s.core.now = true) ∧
    (∃ s : State, Accepts s host 0x6300 6 (d8 1) ∧ s.core.twState 0 = 2) ∧
    (∃ s : State, Accepts s host 0x6301 6 (d8 1) ∧ s.core.twState 1 = 1) ∧
    (∃ s : State, s.core.twState 0 = 6 ∧ s.core.reached (s.core.twc 0).pulseEnd = true) :=
  ⟨⟨sc [(0x6320, 1, 3), (0x6323, 1, 3)] (fun c => c.setTwc 0 { c.twc 0 with wire := some (4, List.replicate 9 true) }),
     by decide +kernel⟩,
   ⟨sc [(0x6320, 1, 5)] (fun c => c.setTwc 0 { c.twc 0 with retryAt := some c.now }),
     by decide +kernel⟩,
   ⟨st [(0x6320, 1, 2)],
     by unfold Accepts; decide +kernel⟩,
   ⟨st [(0x6321, 1, 1)],
     by unfold Accepts; decide +kernel⟩,
   ⟨sc [(0x6320, 1, 6)] (fun c => c.setTwc 0 { c.twc 0 with pulseEnd := some c.now, pulseCause := 3, on := true }),
     by decide +kernel⟩⟩

/-- Meets the hypotheses of `Obligations.EntryWrites`. -/
theorem meets_entry_writes :
    (∃ s : State, s.canServe host 0 = false) ∧
    (∃ s : State, s.canServe host 0 = true ∧ (s.core.touchOwner host).writeCheck host 0x1100 0 (d8 1) ≠ 0) ∧
    (∃ s : State, Accepts s host 0x1240 0 (d16 4) ∧ (rowOf 0x1240 0).any (fun r => r.staged) = true ∧
      (ownAct host 0x1240 0 (d16 4)).isNone ∧ s.core.isStandby = false ∧ s.core.pend = []) ∧
    (∃ s : State, Accepts s host 0x1240 0 (d16 4) ∧ (ownAct host 0x1240 0 (d16 4)).isNone ∧ s.core.pend ≠ [] ∧
      s.core.ent 0x1104 4 ≠ originator host) ∧
    (∃ s : State, Accepts s host 0x1135 0 (d32 15) ∧ (rowOf 0x1135 0).any (fun r => !r.staged) = true ∧
      (ownAct host 0x1135 0 (d32 15)).isNone ∧ s.core.liveRefusal 0x1135 0 15 = 0 ∧ s.core.shared = false) ∧
    (∃ s : State, Accepts s host 0x1211 1 (d32 2000000) ∧ s.core.shared = true ∧ mirrored 0x1211 1 = true ∧
      s.core.liveRefusal 0x1211 1 2000000 = 0) :=
  ⟨⟨{ ready with core := { ready.core with phase := .held } },
     by decide +kernel⟩,
   ⟨ready,
     by decide +kernel⟩,
   ⟨ready,
     by unfold Accepts; decide +kernel⟩,
   ⟨sc [(0x1104, 4, 99)] (fun c => { c with pend := [(entKey 0x1240 0, 8)] }),
     by unfold Accepts; decide +kernel⟩,
   ⟨ready,
     by unfold Accepts; decide +kernel⟩,
   ⟨st [(0x5001, 0, 1), (0x5002, 0, 2)],
     by unfold Accepts; decide +kernel⟩⟩

/-- Meets the hypotheses of `Obligations.Commits`. -/
theorem meets_commits :
    (∃ s : State, Accepts s host 0x1104 2 (d8 1) ∧ s.core.pend = [] ∧ Accepts s host 0x1104 2 (d8 2)) ∧
    (∃ s : State, Accepts s host 0x1104 2 (d8 1) ∧ s.core.pend ≠ [] ∧ s.core.ent 0x1104 4 = originator host ∧
      s.core.sched = none ∧ (s.core.activationTick (s.core.cfgWith s.core.pend)).1 = 0 ∧
      (s.core.cfgWith s.core.pend).refusal (s.core.probesNamed s.core.pend) = none) ∧
    (∃ s : State, Accepts s host 0x1104 2 (d8 2) ∧ s.core.pend ≠ [] ∧ s.core.ent 0x1104 4 ≠ originator host ∧
      s.core.ownerSeen + 10 * second ≤ s.core.now) :=
  ⟨⟨ready,
     by unfold Accepts; decide +kernel⟩,
   ⟨sc [(0x1104, 4, originator host)] (fun c => { c with pend := [(entKey 0x200A 1, 4)] }),
     by unfold Accepts; decide +kernel⟩,
   ⟨sc [(0x1104, 4, 99)] (fun c => { c with pend := [(entKey 0x200A 1, 4)] }),
     by unfold Accepts; decide +kernel⟩⟩

/-- Meets the hypotheses of `Obligations.ConfigurationInForce`. -/
theorem meets_configuration_in_force : ∃ s : State, s.core.sched = some ⟨[(entKey 0x200A 1, 4)], 5120, 1⟩ ∧ s.core.phase = .ready ∧ 5120 ≤ s.core.clock ∧
    s.core.heldLocal = [] ∧ stagedKey (entKey 0x200A 1) = true ∧ rwdKey (entKey 0x200A 1) = false :=
  ⟨sc [] (fun c => { c with sched := some ⟨[(entKey 0x200A 1, 4)], 5120, 1⟩ }), by decide +kernel⟩

/-- Meets the hypotheses of `Obligations.CountersAndInterrupts`. -/
theorem meets_counters_and_interrupts :
    (∃ s : State, Accepts s host 0x1132 0 (d16 0x1120) ∧ Accepts s host 0x1132 0 (d16 0x1100) ∧ 0x1100 ≠ 0xFFFF ∧
      holdsCounter 0x1100 = false ∧ Accepts s host 0x1132 0 (d16 0x5020) ∧ holdsCounter 0x5020 = true ∧
      clears 0x5020 (entKey 0x5020 1) = true ∧ Accepts s host 0x1132 0 (d16 0xFFFF) ∧
      clears 0xFFFF (entKey 0x1120 0) = false) ∧
    (∃ s : State, Accepts s host 0x1134 0 (d32 0xFFFFFFFF) ∧ host.transport = .hspi ∧ host.broadcast = false) :=
  ⟨⟨ready,
     by unfold Accepts; decide +kernel⟩,
   ⟨ready,
     by unfold Accepts; decide +kernel⟩⟩

/-- Meets the hypotheses of `Obligations.HostTransfers`. -/
theorem meets_host_transfers :
    (∃ s : State, s.core.phase = .ready ∧ s.link.hspi ≠ none) ∧
    (∃ s : State, s.core.phase = .ready ∧ s.link.hspi = none ∧ (hspiOf 9 (request 1 6 [])).length = 22 + 8 ∧
      8 + field (hspiOf 9 (request 1 6 [])) 6 2 = 30 ∧ s.core.hspiLocal (hspiOf 0 (request 1 6 [])) = true ∧
      s.core.hspiLocal (hspiOf 9 (request 1 6 [])) = false ∧ s.room 16 = true ∧
      s.sendRefusal (hspiOf 9 (request 1 6 [])) ≠ 0) ∧
    (∃ s : State, s.core.phase = .ready ∧ s.link.hspi = none ∧ s.core.hspiLocal (hspiOf 9 (request 1 6 [])) = false ∧
      s.room 16 = true ∧ s.sendRefusal (hspiOf 9 (request 1 6 [])) = 0 ∧ hspiDest (hspiOf 9 (request 1 6 [])) ≠ 0xFFFF ∧
      s.sendRefusal (hspiOf 0xFFFF (request 2 6 [0])) = 0 ∧ hspiDest (hspiOf 0xFFFF (request 2 6 [0])) = 0xFFFF) ∧
    (∃ s : State, s.core.phase = .ready ∧ s.link.responses = [1, 2, 3] :: []) ∧
    (∃ s : State, s.core.phase = .ready ∧ s.link.responses = []) ∧
    (∃ s : State, s.link.flights.find? 6 = some ⟨9, s.core.now, false, []⟩ ∧ s.core.phase = .ready ∧
      field (response 6) 2 2 % 16384 = 6 ∧ s.room (response 6).length = true) ∧
    (∃ s : State, s.link.flights.find? 6 = some ⟨9, s.core.now, false, []⟩ ∧ s.room (response 6).length = false ∧
      s.room 16 = false) ∧
    (∃ s : State, s.link.flights.find? 6 = some ⟨9, s.core.now, true, []⟩) :=
  ⟨⟨{ ready with link := { ready.link with hspi := some [1] } },
     by decide +kernel⟩,
   ⟨ready,
     by decide +kernel⟩,
   ⟨onLine,
     by decide +kernel⟩,
   ⟨{ ready with link := { ready.link with responses := [[1, 2, 3]] } },
     by decide +kernel⟩,
   ⟨ready,
     by decide +kernel⟩,
   ⟨{ ready with link := { ready.link with flights := [(6, ⟨9, ready.core.now, false, []⟩)] } },
     by decide +kernel⟩,
   ⟨{ ready with link := { ready.link with flights := [(6, ⟨9, ready.core.now, false, []⟩)], responses := [List.replicate 40000 0, List.replicate 30000 0] } },
     by decide +kernel⟩,
   ⟨{ ready with link := { ready.link with flights := [(6, ⟨9, ready.core.now, true, []⟩)] } },
     by decide +kernel⟩⟩

/-- Meets the hypotheses of `Obligations.ServiceInterfaces`. -/
theorem meets_service_interfaces :
    (∃ s : State, s.twtOn = true ∧ s.link.mailState = 0 ∧ s.core.ent 0x6340 3 = 0 ∧ s.core.resetLow = false) ∧
    (∃ s : State, s.twtOn = true ∧ s.link.mailState = 2 ∧ s.core.ent 0x6340 3 = 1) ∧
    (∃ s : State, s.twtOn = true ∧ s.link.mailState = 0 ∧ 8 ≤ s.core.ent 0x6340 3) ∧
    (∃ s : State, s.core.resetLow = true) :=
  ⟨⟨st [(0x6340, 1, 1)],
     by decide +kernel⟩,
   ⟨{ st [(0x6340, 1, 1), (0x6340, 3, 1)] with link := { ready.link with mailState := 2 } },
     by decide +kernel⟩,
   ⟨st [(0x6340, 1, 1), (0x6340, 3, 255)],
     by decide +kernel⟩,
   ⟨sc [] (fun c => { c with resetLow := true }),
     by decide +kernel⟩⟩

/-- Meets the hypotheses of `Obligations.JoinExchange`. -/
theorem meets_join_exchange :
    (∃ s : State, s.core.awake = true ∧ s.core.isTerminus = false ∧ s.core.ent 0x5102 0 = 1 ∧
      s.core.reached s.core.line.requestAt = true) ∧
    (∃ s : State, (serialNo ++ List.replicate 34 7).take 16 = serialNo ∧ s.core.awake = true ∧ s.core.ent 0x5102 0 = 1 ∧
      s.core.isTerminus = false ∧ s.core.ident.storeGood = true ∧ s.core.ident.signing = none) ∧
    (∃ s : State, s.core.awake = true ∧ s.core.ent 0x5102 0 = 1 ∧ s.core.isTerminus = false ∧ s.core.ident.storeGood = true ∧
      s.core.ident.signing ≠ none) ∧
    (∃ s : State, (serialNo ++ (d16 7 ++ d8 3)).take 16 = serialNo ∧ field (serialNo ++ (d16 7 ++ d8 3)) (16 + 2) 1 = 3 ∧
      field (serialNo ++ (d16 7 ++ d8 5)) (16 + 2) 1 = 5 ∧ s.core.awake = true ∧ s.core.isTerminus = false ∧
      s.core.ent 0x5102 0 = 2) ∧
    (∃ s : State, s.core.awake = true ∧ s.core.isTerminus = false ∧ s.core.ent 0x5102 0 = 4) ∧
    (∃ s : State, s.core.ent 0x5102 0 = 2 ∧ s.core.reached s.core.line.decisionBy = true) ∧
    (∃ s : State, s.core.ent 0x5102 0 = 5 ∧ s.core.reached s.core.line.retryAt = true) ∧
    (∃ s : State, s.core.phase = .ready ∧ (List.replicate 85 (4 : Byte)).length = 85 ∧ s.core.isTerminus = true ∧
      s.core.ident.joins = []) ∧
    (∃ s : State, s.core.phase = .ready ∧ s.core.isTerminus = true ∧ (List.replicate 80 (9 : Byte)).length = 80 ∧
      s.core.ident.joins.find? (fun j => j.serial = (List.replicate 80 (9 : Byte)).take 16) = some ⟨7, List.replicate 16 9, [], [], s.core.now⟩ ∧
      s.core.ident.roster = []) :=
  ⟨⟨sc [(0x5102, 0, 1)] (fun c => { c with line := { c.line with requestAt := some c.now } }),
     by decide +kernel⟩,
   ⟨st [(0x5102, 0, 1)],
     by exact ⟨List.take_left' serialNo_length, by decide +kernel⟩⟩,
   ⟨sc [(0x5102, 0, 1)] (fun c => { c with ident := { c.ident with signing := some ⟨2, [], 4, 5⟩ } }),
     by decide +kernel⟩,
   ⟨st [(0x5102, 0, 2)],
     by exact ⟨List.take_left' serialNo_length, by rw [field_serial]; decide, by rw [field_serial]; decide, by decide +kernel⟩⟩,
   ⟨st [(0x5102, 0, 4)],
     by decide +kernel⟩,
   ⟨sc [(0x5102, 0, 2)] (fun c => { c with line := { c.line with decisionBy := some c.now } }),
     by decide +kernel⟩,
   ⟨sc [(0x5102, 0, 5)] (fun c => { c with line := { c.line with retryAt := some c.now } }),
     by decide +kernel⟩,
   ⟨st [(0x5101, 1, 1)],
     by decide +kernel⟩,
   ⟨sc [(0x5101, 1, 1)] (fun c => { c with ident := { c.ident with joins := [⟨7, List.replicate 16 9, [], [], c.now⟩] } }),
     by decide +kernel⟩⟩

/-- Meets the hypotheses of `Obligations.SigningAndRoster`. -/
theorem meets_signing_and_roster :
    (∃ s : State, Accepts s host 0x5210 1 (List.replicate 32 5) ∧ s.core.ident.storeGood = true ∧
      s.core.ident.signing = none) ∧
    (∃ s : State, Accepts s host 0x5210 1 (List.replicate 32 5) ∧ s.core.ident.signing = some ⟨2, [1], 4, 5⟩ ∧
      Accepts s host 0x6430 3 (d8 1)) ∧
    (∃ s : State, s.core.ident.signing = some ⟨3, [1], 4, 5⟩ ∧ s.core.ident.waiting ≠ none) ∧
    (∃ s : State, Accepts s host 0x5233 0 (rosterBytes 9 1) ∧ rosState (rosterRaw (rosterBytes 9 1)) = 1 ∧
      s.core.rosterClash (s.core.ent 0x5232 0) (rosterRaw (rosterBytes 9 1)) = false ∧
      rosState (rosterRaw (rosterBytes 9 0)) = 0 ∧ rosState (rosterRaw (rosterBytes 9 3)) = 3) ∧
    (∃ s : State, Accepts s host 0x5235 0 (d16 7 ++ List.replicate 8 3 ++ d8 1) ∧
      Accepts s host 0x5235 0 (d16 7 ++ List.replicate 8 3 ++ d8 2) ∧ s.core.pendingHit 7 (List.replicate 8 3) = none) ∧
    (∃ s : State, Accepts s host 0x5235 0 (d16 7 ++ List.replicate 8 3 ++ d8 1) ∧
      s.core.pendingHit 7 (List.replicate 8 3) = some 16 ∧ field (pendBytes (s.core.ent 0x5236 16)) 2 1 = 3) ∧
    (∃ s : State, Accepts s host 0x5235 0 (d16 7 ++ List.replicate 8 3 ++ d8 1) ∧
      s.core.pendingHit 7 (List.replicate 8 3) = some 1 ∧ field (pendBytes (s.core.ent 0x5236 1)) 2 1 ≠ 3 ∧
      s.core.rosterAt 7 = none ∧ s.core.rosterFree = some 0 ∧
      s.core.rosterClash 0 (rosEntry 7 2 0 (((pendBytes (s.core.ent 0x5236 1)).drop 20).take 32)) = false) ∧
    (∃ s : State, Accepts s host 0x5235 0 (d16 7 ++ List.replicate 8 3 ++ d8 1) ∧
      s.core.pendingHit 7 (List.replicate 8 3) = some 1 ∧ field (pendBytes (s.core.ent 0x5236 1)) 2 1 ≠ 3 ∧
      s.core.rosterAt 7 = none ∧ s.core.rosterFree = some 0 ∧
      s.core.rosterClash 0 (rosEntry 7 2 0 (((pendBytes (s.core.ent 0x5236 1)).drop 20).take 32)) = true) ∧
    (∃ s : State, Accepts s host 0x5235 0 (d16 7 ++ List.replicate 8 3 ++ d8 1) ∧
      s.core.pendingHit 7 (List.replicate 8 3) = some 1 ∧ field (pendBytes (s.core.ent 0x5236 1)) 2 1 ≠ 3 ∧
      s.core.rosterAt 7 = some (1, rosEntry 7 1 0 [])) ∧
    (∃ s : State, Accepts s host 0x6430 3 (d8 1) ∧ s.core.ident.storeGood = true ∧ s.core.ident.signing = none ∧
      s.core.ident.waiting = none ∧ s.book.frozen = none) :=
  ⟨⟨ready,
     by unfold Accepts; decide +kernel⟩,
   ⟨sc [] (fun c => { c with ident := { c.ident with signing := some ⟨2, [1], 4, 5⟩ } }),
     by unfold Accepts; decide +kernel⟩,
   ⟨sc [] (fun c => { c with ident := { c.ident with signing := some ⟨3, [1], 4, 5⟩, waiting := some ⟨1, [1], 4, 5⟩ } }),
     by decide +kernel⟩,
   ⟨st [(0x5101, 1, 1)],
     by unfold Accepts; decide +kernel⟩,
   ⟨st [(0x5101, 1, 1)],
     by unfold Accepts; decide +kernel⟩,
   ⟨st [(0x5101, 1, 1), (0x5236, 16, pendEntry 7 3)],
     by unfold Accepts; decide +kernel⟩,
   ⟨st [(0x5101, 1, 1), (0x5236, 1, pendEntry 7 1)],
     by unfold Accepts; decide +kernel⟩,
   ⟨sc [(0x5101, 1, 1), (0x5236, 1, pendEntry 7 1)]
      (fun c => { c with ident := { c.ident with roster := [(1, rosEntry 9 1 0 (List.replicate 32 3))] } }),
     by unfold Accepts; decide +kernel⟩,
   ⟨sc [(0x5101, 1, 1), (0x5236, 1, pendEntry 7 1)] (fun c => { c with ident := { c.ident with roster := [(1, rosEntry 7 1 0 [])] } }),
     by unfold Accepts; decide +kernel⟩,
   ⟨ready,
     by unfold Accepts; decide +kernel⟩⟩

/-- Meets the hypotheses of `Obligations.FrameTiming`. -/
theorem meets_frame_timing :
    (∃ s : State, s.core.periodDue = true ∧ s.core.fe.jump = none) ∧
    (∃ s : State, s.core.fe.jump = some 77 ∧ s.core.periodDue = true) ∧
    (∃ s : State, s.core.entryDue 0 = true) ∧
    (∃ s : State, s.core.edgeDue (.fec 0) false = true) ∧
    (∃ s : State, s.core.edgeDue (.fec 0) true = true ∧ s.core.ent 0x3220 1 = 2 ∧
      s.core.trswOn (s.core.ent 0x3220 2) = true) ∧
    (∃ s : State, s.core.edgeDue (.trsw 3) false = true) ∧
    (∃ s : State, s.core.searching = true ∧ s.core.ent 0x3202 0 = 1 ∧ s.core.ent 0x3201 4 = 0xFFFF ∧
      s.core.cfg.framePeriod ≠ 0) ∧
    (∃ s : State, s.core.searching = true ∧ s.core.ent 0x3202 0 = 2 ∧ s.core.ent 0x3201 4 = 5 ∧
      withinI (s.core.burstError 256) 256 = true ∧ withinI (s.core.burstError 257) 256 = false) ∧
    (∃ s : State, s.core.searching = true ∧ s.core.ent 0x3202 0 = 3 ∧ withinI (s.core.burstError (-1024)) 1024 = true ∧
      withinI (s.core.burstError (-1025)) 1024 = false) ∧
    (∃ s : State, s.core.searching = true ∧ s.core.ent 0x3202 0 = 3 ∧
      s.core.fe.burstAt + 5 * ms * 2 ^ (s.core.ent 0x3201 5) ≤ s.core.now) ∧
    (∃ s : State, s.core.ent 0x3202 0 = 4 ∧ s.core.fe.holdSince = some (s.core.now - second) ∧
      s.core.now - second + s.core.holdLimit ≤ s.core.now ∧ s.core.cfg.timingSource ≠ 2 ∧
      s.core.now - second + s.core.ent 0x3201 8 * second ≤ s.core.now) :=
  ⟨⟨sc [(0x3200, 0, 1), (0x3210, 1, 5120)] (fun c => { c with fe := { c.fe with actFrom := some 5120 } }),
     by decide +kernel⟩,
   ⟨sc [(0x3200, 0, 1), (0x3210, 1, 5120)] (fun c => { c with fe := { c.fe with jump := some 77, actFrom := some 0 } }),
     by decide +kernel⟩,
   ⟨sc [(0x3200, 0, 1), (0x3210, 1, 5120), (0x3211, 1, 0), (0x3211, 2, 0xFF * 2 ^ 32)] (fun c => { c with fe := { c.fe with actFrom := some 0, lastStart := some 5120 } }),
     by decide +kernel⟩,
   ⟨st [(0x3220, 1, 0), (0x3220, 7, 1)],
     by decide +kernel⟩,
   ⟨sc [(0x3200, 0, 1), (0x3210, 1, 5120), (0x3211, 2, 0xFF * 2 ^ 32), (0x3220, 1, 2), (0x3240, 5, 1), (0x1100, 0, 2)] (fun c => { c with fe := { c.fe with actFrom := some 0 } }),
     by decide +kernel⟩,
   ⟨st [(0x3243, 5, 1)],
     by decide +kernel⟩,
   ⟨st (onPath ++ [(0x3201, 1, 1), (0x3202, 0, 1), (0x3201, 4, 0xFFFF), (0x3200, 0, 1), (0x3210, 1, 5120)]),
     by decide +kernel⟩,
   ⟨st (onPath ++ [(0x3201, 1, 1), (0x3202, 0, 2), (0x3201, 4, 5)]),
     by decide +kernel⟩,
   ⟨st (onPath ++ [(0x3201, 1, 1), (0x3202, 0, 3), (0x3201, 4, 5)]),
     by decide +kernel⟩,
   ⟨st (onPath ++ [(0x3201, 1, 1), (0x3202, 0, 3), (0x3201, 4, 5)]),
     by decide +kernel⟩,
   ⟨sc [(0x3202, 0, 4), (0x3201, 8, 1)] (fun c => { c with fe := { c.fe with holdSince := some (c.now - second) } }),
     by decide +kernel⟩⟩

/-- Meets the hypotheses of `Obligations.PointsAndCoexistence`. -/
theorem meets_points_and_coexistence :
    (∃ s : State, s.core.awake = true ∧ s.core.ent 0x3251 3 = 2 ∧ s.core.ent 0x3251 1 < 8 ∧ s.core.ent 0x3202 0 = 4) ∧
    (∃ s : State, (s.core.points 1).changeAt = some (s.core.clock - 1) ∧
      atOrBefore (s.core.clock - 1) s.core.clock = true ∧ (s.core.points 1).pending = some 1 ∧
      (s.core.isStandby && s.core.paired) = false) ∧
    (∃ s : State, s.core.phase = .ready ∧ s.core.ent 0x3260 1 = 1 ∧ s.core.ent 0x3260 4 = 0) ∧
    (∃ s : State, s.core.ent 0x3261 4 = 1 ∧ s.core.reached (s.core.coex 1).grantAt = true) ∧
    (∃ s : State, s.core.ent 0x3260 4 = 2 ∧ (s.core.coex 0).overdue = false ∧
      (s.core.coex 0).grantedAt + s.core.ent 0x3260 3 * ms < s.core.now) ∧
    (∃ s : State, s.core.ent 0x3260 4 = 3 ∧ s.core.reached (s.core.coex 0).resumeAt = true) :=
  ⟨⟨st [(0x3251, 3, 2), (0x3251, 1, 7), (0x3202, 0, 4)],
     by decide +kernel⟩,
   ⟨sc [] (fun c => c.setPoints 1 { c.points 1 with pending := some 1, changeAt := some (c.clock - 1) }),
     by decide +kernel⟩,
   ⟨st [(0x3260, 1, 1)],
     by decide +kernel⟩,
   ⟨sc [(0x3261, 4, 1)] (fun c => c.setCoex 1 { c.coex 1 with grantAt := some c.now }),
     by decide +kernel⟩,
   ⟨st [(0x3260, 4, 2)],
     by decide +kernel⟩,
   ⟨sc [(0x3260, 4, 3)] (fun c => c.setCoex 0 { c.coex 0 with resumeAt := some c.now }),
     by decide +kernel⟩⟩

/-- Meets the hypotheses of `Obligations.SignalBoxMoments`. -/
theorem meets_signal_box_moments :
    (∃ s : State, s.core.periodStarts = true ∧ (s.core.isStandby && s.core.paired) = false ∧ s.core.time.period = some 4608 ∧
      (4608 + s.core.tc) % 2 ^ 64 = s.core.clock) ∧
    (∃ s : State, s.core.periodStarts = true ∧ (s.core.isStandby && s.core.paired) = false ∧ s.core.time.period = some 4096 ∧
      (4096 + s.core.tc) % 2 ^ 64 ≠ s.core.clock) ∧
    (∃ s : State, s.core.time.outputsDone = false ∧ s.core.time.period = some 4992 ∧
      (4992 + s.core.ent 0x4381 0) % 2 ^ 64 = s.core.clock ∧ (s.core.slot 63).next = some (run false false) ∧
      (s.core.slot 0).next = some (run true false) ∧ (s.core.slot 1).next = some (run false true) ∧
      (∀ n ∈ List.range 64, (s.core.cfg.levelPath n).all (fun p => decide (p < 32)) = true)) ∧
    (∃ s : State, s.core.phase = .ready ∧ s.core.ent 0x4810 1 = 1 ∧ s.core.clock % s.core.cfg.pwmPeriod 1 = 0) ∧
    (∃ s : State, s.core.awake = true ∧ (true != (s.core.axis 1).levelA) = true ∧ s.core.ent 0x4810 1 = 1 ∧
      s.core.ent 0x4811 3 = 2 ∧ s.core.ent 0x4810 6 ≠ 0 ∧
      4 < (wrapS 32 (s.core.entS 32 0x4811 1 - s.core.entS 32 0x4811 6)) % 1000) ∧
    (∃ s : State, s.core.stalled 0 = true ∧ Accepts s host 0x4801 8 (d8 1) ∧ s.core.ent 0x4800 1 = 1) ∧
    (∃ s : State, Accepts s host 0x4811 8 (d8 1) ∧ s.core.ent 0x4810 1 ≠ 1 ∧ s.core.awake = true ∧ s.core.ent 0x4811 3 ≠ 1) :=
  ⟨⟨sc [(0x1240, 0, 4)] (fun c => { c with time := { c.time with period := some 4608 } }),
     by decide +kernel⟩,
   ⟨sc [(0x1240, 0, 4)] (fun c => { c with time := { c.time with period := some 4096 } }),
     by decide +kernel⟩,
   ⟨sc [(0x4381, 0, 128)] (fun c => (((c.setSlot 63 { c.slot 63 with next := some (run false false) }).setSlot 0 { c.slot 0 with next := some (run true false) }).setSlot 1 { c.slot 1 with next := some (run false true) }) |> fun c => { c with time := { c.time with period := some 4992, outputsDone := false } }),
     by decide +kernel⟩,
   ⟨st [(0x4810, 1, 1), (0x4810, 2, 96000)],
     by decide +kernel⟩,
   ⟨sc [(0x4810, 1, 1), (0x4810, 6, 1000), (0x4811, 3, 2), (0x4811, 1, 5)] (fun c => c.setAxis 1 { c.axis 1 with indexed := true }),
     by decide +kernel⟩,
   ⟨sc [(0x4800, 1, 1), (0x4800, 10, 1)] (fun c => c.setAxis 0 { c.axis 0 with stallSince := some (c.now - ms) }),
     by unfold Accepts; decide +kernel⟩,
   ⟨ready,
     by unfold Accepts; decide +kernel⟩⟩

/-- Meets the hypotheses of `Obligations.TwinRoles`. -/
theorem meets_twin_roles :
    (∃ s : State, s.core.partnerOverdue = true) ∧
    (∃ s : State, s.core.twinOn = true ∧ s.core.phase = .ready ∧ s.core.tokenSeen = true ∧ s.core.ent 0x5002 0 ≠ 1 ∧
      s.core.isStandby = true ∧ s.core.twin.yielded = false) ∧
    (∃ s : State, s.core.twinOn = true ∧ s.core.phase = .ready ∧ s.core.tokenSeen = true ∧ s.core.ent 0x5002 0 = 1 ∧
      s.core.isStandby = true ∧ 3 ≤ s.core.ent 0x5040 2) ∧
    (∃ s : State, s.core.twinOn = true ∧ s.core.phase = .ready ∧ s.core.tokenSeen = false ∧ s.core.ent 0x5001 0 ≠ 0) ∧
    (∃ s : State, s.core.twinOn = true ∧ s.core.phase = .ready ∧ s.core.tokenSeen = false ∧ s.core.ent 0x5001 0 = 0 ∧
      s.core.linkUp = true ∧ s.core.entBit 0x5000 0 8 = false ∧ s.core.twin.tokenMissing = some (s.core.now - second) ∧
      s.core.now - second + second ≤ s.core.now) ∧
    (∃ s : State, s.core.twinOn = true ∧ s.core.phase = .ready ∧ s.core.twin.preemptIn = false ∧ s.core.ent 0x5001 0 = 0) ∧
    (∃ s : State, s.core.twinOn = true ∧ s.core.phase = .ready ∧ s.core.twin.preemptIn = false ∧
      s.core.twin.preemptOut = true ∧ ¬ (s.core.now ≤ s.core.twin.assertedAt + 64)) ∧
    (∃ s : State, s.core.twinOn = true ∧ s.core.twin.preemptIn = false ∧ s.core.twin.preemptOut = true ∧
      s.core.now ≤ s.core.twin.assertedAt + 64 ∧ s.core.entBit 0x5000 0 7 = true) ∧
    (∃ s : State, s.core.twin.preemptIn = false ∧ s.core.twin.preemptOut = true ∧ s.core.now ≤ s.core.twin.assertedAt + 64 ∧
      s.core.entBit 0x5000 0 7 = false ∧ s.core.isPrimary = false) ∧
    (∃ s : State, s.core.twin.preemptIn = false ∧ s.core.twin.preemptOut = true ∧ s.core.now ≤ s.core.twin.assertedAt + 64 ∧
      s.core.entBit 0x5000 0 7 = false ∧ s.core.isPrimary = true) ∧
    (∃ s : State, s.core.twinOn = true ∧ s.core.twin.preemptIn = false ∧ s.core.twin.preemptOut = false ∧
      s.core.twin.swapPhase < 2 ∧ s.core.ent 0x5001 0 ≠ 0) ∧
    (∃ s : State, s.core.twinOn = true ∧ s.core.twin.preemptIn = false ∧ s.core.twin.preemptOut = false ∧
      s.core.isActive = true ∧ 2 ≤ s.core.twin.swapPhase) ∧
    (∃ s : State, s.core.twin.preemptIn = false ∧ s.core.twin.preemptOut = false ∧ s.core.isActive = false ∧
      2 ≤ s.core.twin.swapPhase ∧ s.core.ent 0x5001 0 ≠ 0 ∧ s.core.reached s.core.twin.windowUntil = true ∧
      s.core.reached s.core.twin.reclaimAt = true) :=
  ⟨⟨st [(0x5000, 0, 1)],
     by decide +kernel⟩,
   ⟨st [(0x5000, 0, 0x0D), (0x5001, 0, 2), (0x5002, 0, 2)],
     by decide +kernel⟩,
   ⟨sc [(0x5000, 0, 0x0D), (0x5001, 0, 2), (0x5002, 0, 1), (0x5040, 2, 3)] (fun c => { c with twin := { c.twin with copied := [(1, 2)] } }),
     by decide +kernel⟩,
   ⟨st [(0x5000, 0, 0x09), (0x5001, 0, 1)],
     by decide +kernel⟩,
   ⟨sc [(0x5000, 0, 0x09)] (fun c => { c with twin := { c.twin with tokenMissing := some (c.now - second) } }),
     by decide +kernel⟩,
   ⟨st [(0x5000, 0, 1)],
     by decide +kernel⟩,
   ⟨sc [(0x5000, 0, 1), (0x5001, 0, 1)] (fun c => { c with twin := { c.twin with preemptOut := true, assertedAt := c.now - 65 } }),
     by decide +kernel⟩,
   ⟨sc [(0x5000, 0, 0x81), (0x5001, 0, 1)] (fun c => { c with twin := { c.twin with preemptOut := true, assertedAt := c.now - 64 } }),
     by decide +kernel⟩,
   ⟨sc [(0x5000, 0, 1), (0x5001, 0, 1)] (fun c => { c with twin := { c.twin with preemptOut := true, assertedAt := c.now - 64 } }),
     by decide +kernel⟩,
   ⟨sc [(0x5000, 0, 3), (0x5001, 0, 1)] (fun c => { c with twin := { c.twin with preemptOut := true, assertedAt := c.now - 64 } }),
     by decide +kernel⟩,
   ⟨st [(0x5000, 0, 1), (0x5001, 0, 2)],
     by decide +kernel⟩,
   ⟨sc [(0x5000, 0, 1), (0x5001, 0, 1)] (fun c => { c with twin := { c.twin with swapPhase := 2 } }),
     by decide +kernel⟩,
   ⟨sc [(0x5000, 0, 1), (0x5001, 0, 2)] (fun c => { c with twin := { c.twin with swapPhase := 2, windowUntil := some c.now, reclaimAt := some c.now } }),
     by decide +kernel⟩⟩

/-- Meets the hypotheses of `Obligations.TwinSwaps`. -/
theorem meets_twin_swaps :
    (∃ s : State, Accepts s host 0x5004 0 (d8 1) ∧ Accepts s host 0x7010 7 (d8 1) ∧ s.core.ent 0x5002 0 ≠ 2) ∧
    (∃ s : State, Accepts s host 0x5004 0 (d8 1) ∧ Accepts s host 0x7010 7 (d8 1) ∧ s.core.ent 0x5002 0 = 2 ∧
      s.core.swapBusy = false ∧ s.core.mayProve = true ∧ s.core.phase = .ready ∧ s.core.twinOn = true ∧
      s.core.ent 0x7010 1 ≠ 0 ∧ s.core.provingDue ≤ s.core.clock) ∧
    (∃ s : State, s.core.mayProve = false ∧ s.core.swapBusy = false ∧ s.core.provingDue ≤ s.core.clock ∧
      Accepts s host 0x7010 7 (d8 1)) ∧
    (∃ s : State, Accepts s host 0x5004 0 (d8 1) ∧ Accepts s host 0x7010 7 (d8 1) ∧ s.core.ent 0x5002 0 = 2 ∧
      s.core.swapBusy = true ∧ s.core.swapReached 1 0 = true) ∧
    (∃ s : State, s.core.swapReached 1 0 = true ∧ s.core.ent 0x5002 0 ≠ 2) ∧
    (∃ s : State, s.core.reached s.core.twin.dwellEnd = true ∧ s.core.ent 0x5002 0 = 2 ∧ 10 ≤ s.core.twin.differences) ∧
    (∃ s : State, s.core.swapReached 2 1088 = true ∧ s.core.edgeSoon = false ∧ s.core.twin.swapOut = true) ∧
    (∃ s : State, s.core.swapReached 3 1152 = true ∧ s.core.twin.swapOut = false) ∧
    (∃ s : State, s.core.swapReached 3 1280 = true ∧ s.core.twin.swapOut = true ∧ s.core.twin.preemptIn = false) ∧
    (∃ s : State, s.core.swapReached 2 1280 = true ∧ s.core.twin.swapOut = true ∧ s.core.twin.preemptIn = false) ∧
    (∃ s : State, s.core.isStandby = true ∧ s.core.isPrimary = true ∧ s.core.ent 0x5002 0 = 2 ∧ s.core.ent 0x5010 1 = 1 ∧
      s.core.swapBusy = false ∧ s.core.twin.protectedSince = some (s.core.now - second) ∧
      s.core.now - second + s.core.ent 0x5010 2 * second ≤ s.core.now ∧ s.core.linkUp = true) :=
  ⟨⟨ready,
     by unfold Accepts; decide +kernel⟩,
   ⟨protected_,
     by unfold Accepts; decide +kernel⟩,
   ⟨protected_.onCore (fun c => c.setEnt 0x1100 0 4),
     by unfold Accepts; decide +kernel⟩,
   ⟨swapping 1 5120 false,
     by unfold Accepts; decide +kernel⟩,
   ⟨(swapping 1 5120 true).onCore (fun c => c.setEnt 0x5002 0 3),
     by decide +kernel⟩,
   ⟨protected_.onCore (fun c => { c with twin := { c.twin with dwellEnd := some c.now, differences := 10 } }),
     by decide +kernel⟩,
   ⟨swapping 2 (5120 - 1088) true,
     by decide +kernel⟩,
   ⟨swapping 3 (5120 - 1152) false,
     by decide +kernel⟩,
   ⟨swapping 3 (5120 - 1280) true,
     by decide +kernel⟩,
   ⟨swapping 2 (5120 - 1280) true,
     by decide +kernel⟩,
   ⟨sc [(0x5000, 0, 0x0F), (0x5001, 0, 2), (0x5002, 0, 2), (0x5010, 1, 1), (0x5010, 2, 1)] (fun c => { c with twin := { c.twin with protectedSince := some (c.now - second) } }),
     by decide +kernel⟩⟩

/-- Meets the hypotheses of `Obligations.TwinFramesAndJoins`. -/
theorem meets_twin_frames_and_joins :
    (∃ s : State, s.core.twinOn = true ∧ s.core.phase = .ready ∧ s.core.clock % 128 = 0 ∧ s.core.twin.sentFrame = []) ∧
    (∃ s : State, s.core.twinOn = true ∧ s.core.phase = .ready ∧ s.core.twin.badFrames = 0 ∧ s.core.linkUp = true ∧
      s.core.twin.lastFrame + 384 ≤ s.core.now) ∧
    (∃ s : State, s.core.twinOn = true ∧ s.core.phase = .ready ∧ s.core.twin.badFrames ≠ 0) ∧
    (∃ s : State, s.core.mayJoin = true ∧ s.core.twin.conditionsSince = some (s.core.now - 10 * second) ∧
      s.core.now - 10 * second + 10 * second ≤ s.core.now ∧ Accepts s host 0x5040 1 (d8 1) ∧ s.core.ent 0x5002 0 = 3 ∧
      s.core.linkUp = true ∧ s.core.tokenSeen = true ∧ s.core.twin.token = true ∧ s.core.ent 0x5001 0 ≠ 0) ∧
    (∃ s : State, Accepts s host 0x5040 1 (d8 1) ∧ s.core.ent 0x5002 0 ≠ 1 ∧ ¬ (s.core.ent 0x5002 0 = 3) ∧
      Accepts s host 0x5040 1 (d8 2) ∧ s.core.twinOn = false) ∧
    (∃ s : State, Accepts s host 0x5040 1 (d8 1) ∧ s.core.ent 0x5002 0 = 1 ∧ Accepts s host 0x5040 1 (d8 2) ∧
      s.core.twinOn = true) ∧
    (∃ s : State, s.core.stepReady = true) ∧
    (∃ s : State, s.core.stepReady = true ∧ s.core.ent 0x5040 2 = 3) ∧
    (∃ s : State, s.core.ent 0x5002 0 = 1 ∧ s.core.isStandby = true ∧ s.core.ent 0x5040 2 = 6 ∧ s.core.verified = true) ∧
    (∃ s : State, s.core.ent 0x5002 0 = 1 ∧ s.core.twin.joinFrom = some 5 ∧
      5 + stepLimit (s.core.ent 0x5040 2) < s.core.now) ∧
    (∃ s : State, s.core.reached s.core.twin.easeAt = true ∧ s.core.cdb 0x5041 0 < 0) ∧
    (∃ s : State, Accepts s host 0x7000 1 (d8 1) ∧ Accepts s host 0x7000 1 (d8 2) ∧ s.core.twin.selfTest = none ∧
      s.core.mode = mDepot ∧ s.core.twinOn = false) ∧
    (∃ s : State, Accepts s host 0x7000 1 (d8 1) ∧ s.core.twin.selfTest = none ∧ s.core.mode ≠ mDepot ∧
      s.core.mode ≠ mShunt ∧ s.core.mode ≠ mRun ∧ s.core.mode ≠ mCaution ∧ s.core.twinOn = true) ∧
    (∃ s : State, Accepts s host 0x7000 1 (d8 1) ∧ s.core.twin.selfTest = none ∧ s.core.mode = mRun ∧
      s.core.ent 0x5002 0 = 2 ∧ s.core.isStandby = true ∧ Accepts s host 0x7000 1 (d8 2) ∧ s.core.twinOn = true) ∧
    (∃ s : State, Accepts s host 0x7000 1 (d8 1) ∧ s.core.mode = mCaution ∧ s.core.ent 0x5002 0 = 2 ∧
      s.core.isStandby = false) ∧
    (∃ s : State, Accepts s host 0x7000 1 (d8 1) ∧ s.core.mode = mRun ∧ s.core.ent 0x5002 0 ≠ 2 ∧
      allPaths.filter (fun p => s.core.cfg.configured p && (s.core.cfg.rfinsOf (s.core.cfg.source p)).contains (s.core.ent 0x7000 3)) = []) ∧
    (∃ s : State, s.core.twin.selfTest = some 2) ∧
    (∃ s : State, s.core.twin.selfTest = some 3 ∧ s.core.twin.selfTestAt + 2 * ms ≤ s.core.now) :=
  ⟨⟨st [(0x5000, 0, 1)],
     by decide +kernel⟩,
   ⟨sc [(0x5000, 0, 9)] (fun c => { c with twin := { c.twin with lastFrame := c.now - 384 } }),
     by decide +kernel⟩,
   ⟨sc [(0x5000, 0, 9)] (fun c => { c with twin := { c.twin with badFrames := 1 } }),
     by decide +kernel⟩,
   ⟨sc [(0x5000, 0, 0x0D), (0x5001, 0, 1), (0x5002, 0, 3)] (fun c => { c with twin := { c.twin with token := true, conditionsSince := some (c.now - 10 * second) } }),
     by unfold Accepts; decide +kernel⟩,
   ⟨ready,
     by unfold Accepts; decide +kernel⟩,
   ⟨st [(0x5000, 0, 1), (0x5002, 0, 1)],
     by unfold Accepts; decide +kernel⟩,
   ⟨sc [(0x5001, 0, 2), (0x5002, 0, 1), (0x5040, 2, 1)] (fun c => { c with twin := { c.twin with copyEnd := some 0 } }),
     by decide +kernel⟩,
   ⟨st [(0x5001, 0, 2), (0x5002, 0, 1), (0x5040, 2, 3)],
     by decide +kernel⟩,
   ⟨st [(0x5001, 0, 2), (0x5002, 0, 1), (0x5040, 2, 6), (0x5030, 5, 0)],
     by decide +kernel⟩,
   ⟨sc [(0x5002, 0, 1), (0x5040, 2, 1)] (fun c => { c with twin := { c.twin with joinFrom := some 5 } }),
     by decide +kernel⟩,
   ⟨sc [(0x5041, 0, rawOf 16 (-1))] (fun c => { c with twin := { c.twin with easeAt := some c.now } }),
     by decide +kernel⟩,
   ⟨ready,
     by unfold Accepts; decide +kernel⟩,
   ⟨st [(0x1100, 0, 4), (0x5000, 0, 1)],
     by unfold Accepts; decide +kernel⟩,
   ⟨st [(0x1100, 0, 2), (0x5000, 0, 1), (0x5001, 0, 2), (0x5002, 0, 2)],
     by unfold Accepts; decide +kernel⟩,
   ⟨st [(0x1100, 0, 3), (0x5001, 0, 1), (0x5002, 0, 2)],
     by unfold Accepts; decide +kernel⟩,
   ⟨st [(0x1100, 0, 2)],
     by unfold Accepts; decide +kernel⟩,
   ⟨sc [] (fun c => { c with twin := { c.twin with selfTest := some 2 } }),
     by decide +kernel⟩,
   ⟨sc [] (fun c => { c with twin := { c.twin with selfTest := some 3, selfTestAt := c.now - 2 * ms } }),
     by decide +kernel⟩⟩

/-- Meets the hypotheses of `Obligations.LineMoments`. -/
theorem meets_line_moments :
    (∃ s : State, s.core.awake = true ∧ s.core.ent 0x5112 3 = 1 ∧ s.core.ent 0x5112 1 = 1) ∧
    (∃ s : State, 2 ≤ s.core.ent 0x5110 3 ∧ s.core.awake = true) ∧
    (∃ s : State, 3 ≤ s.core.ent 0x5112 3 ∧ s.core.phase = .ready ∧ s.core.framed 2 = true) ∧
    (∃ s : State, s.core.ent 0x5110 1 = 1 ∧ (s.core.port 0).fecFlagged = false ∧
      (s.core.port 0).fecSince = some (s.core.now - 100 * ms) ∧ s.core.now - 100 * ms + 100 * ms ≤ s.core.now) ∧
    (∃ s : State, s.core.awake = true ∧ s.core.ticking = true ∧ s.core.clock % 256 = 0 ∧ s.core.ent 0x5111 1 = 1) ∧
    (∃ s : State, s.core.awake = true ∧ s.core.ent 0x5110 3 = 2 ∧ (header 0).length = 16 ∧ field (header 0) 0 2 = 0x5B3C ∧
      crc16 ((header 0).take 14) = field (header 0) 14 2 ∧ field (header 1) 0 2 = 0x5B3D ∧
      crc16 ((header 1).take 14) = field (header 1) 14 2 ∧ field (header 1) 4 8 = (4864 + 256) % 2 ^ 64 ∧
      4 ≤ (s.core.port 0).goodFrames + 1) ∧
    (∃ s : State, s.core.framed 0 = true ∧ s.core.phase = .ready ∧ s.core.address = 7 ∧ 12 ≤ (packetOf 7 3 0 4 [1]).length ∧
      crc16 ((packetOf 7 3 0 4 [1]).take 10) = field (packetOf 7 3 0 4 [1]) 10 2 ∧ field (packetOf 7 3 0 0 [1]) 6 2 = 0 ∧
      field (packetOf 7 3 0 4 [1]) 6 2 ≠ 0 ∧ field (packetOf 7 3 0 4 [1]) 0 2 = s.core.address ∧
      crc32 ((packetOf 7 3 0 4 [1]).take 13) = field (packetOf 7 3 0 4 [1]) 13 4) ∧
    (∃ s : State, s.core.line.learned.find? 7 = some ⟨0, s.core.now - 600 * second⟩ ∧
      s.core.now - 600 * second + 600 * second ≤ s.core.now) ∧
    (∃ s : State, s.core.awake = true ∧ s.core.ringTerminus = true ∧ s.core.clock % ms = 0 ∧ s.core.framed 1 = true) ∧
    (∃ s : State, s.core.awake = true ∧ s.core.ringTerminus = true ∧ s.core.clock % ms = 0 ∧ s.core.framed 1 = false) ∧
    (∃ s : State, s.core.ringTerminus = true ∧ s.core.line.probeAt ≠ none ∧ 2 ≤ s.core.line.probesBack ∧
      s.core.ringClosed = false) ∧
    (∃ s : State, s.core.ringTerminus = true ∧ s.core.line.probeAt ≠ none ∧ ¬ (2 ≤ s.core.line.probesBack) ∧
      s.core.ringClosed = true) :=
  ⟨⟨st [(0x5112, 3, 1), (0x5112, 1, 1)],
     by decide +kernel⟩,
   ⟨st [(0x5110, 3, 2)],
     by decide +kernel⟩,
   ⟨st [(0x5112, 3, 3)],
     by decide +kernel⟩,
   ⟨sc [(0x5110, 1, 1)] (fun c => c.setPort 0 { c.port 0 with fecSince := some (c.now - 100 * ms) }),
     by decide +kernel⟩,
   ⟨st [(0x5111, 1, 1)],
     by decide +kernel⟩,
   ⟨sc [(0x5110, 3, 2)] (fun c => c.setPort 0 { c.port 0 with goodFrames := 3, lastTick := 4864 }),
     by decide +kernel⟩,
   ⟨st [(0x5110, 3, 3), (0x5103, 1, 7)],
     by decide +kernel⟩,
   ⟨sc [] (fun c => { c with line := { c.line with learned := [(7, ⟨0, c.now - 600 * second⟩)] } }),
     by decide +kernel⟩,
   ⟨sc [(0x5101, 1, 1), (0x5101, 4, 1), (0x5111, 3, 3)] (fun c => { c with clock := ms }),
     by decide +kernel⟩,
   ⟨sc [(0x5101, 1, 1), (0x5101, 4, 1)] (fun c => { c with clock := ms }),
     by decide +kernel⟩,
   ⟨sc [(0x5101, 1, 1), (0x5101, 4, 1)] (fun c => { c with line := { c.line with probeAt := some 5, probesBack := 2 } }),
     by decide +kernel⟩,
   ⟨sc [(0x5101, 1, 1), (0x5101, 4, 1), (0x5100, 0, 8)] (fun c => { c with line := { c.line with probeAt := some 5, probesBack := 1 } }),
     by decide +kernel⟩⟩

/-- Meets the hypotheses of the second part of `Obligations.EntryWrites`. -/
theorem meets_command_values :
    (∃ s : State, Accepts s host (pIdx 31 0x10) 3 (d8 0) ∧ Accepts s host (pIdx 31 9) 5 (d8 2) ∧
      Accepts s host (pIdx 0 0x19) 6 (d8 255) ∧ Accepts s host 0x2A02 0 (d8 0) ∧ Accepts s host 0x2886 0 (d8 2) ∧
      Accepts s host 0x1210 6 (d8 0) ∧ Accepts s host 0x4811 8 (d8 2) ∧ Accepts s host 0x6213 8 (d8 0) ∧
      Accepts s host 0x6313 5 (d8 2) ∧ Accepts s host 0x6301 6 (d8 0)) ∧
    (∃ s : State, Accepts s host 0x1112 0 (d8 0) ∧ Accepts s host 0x5004 0 (d8 2) ∧ Accepts s host 0x7010 7 (d8 0) ∧
      Accepts s host 0x6203 1 (d8 59)) :=
  ⟨⟨ready,
     by unfold Accepts; decide +kernel⟩,
   ⟨ready,
     by unfold Accepts; decide +kernel⟩⟩

/-- Meets the hypotheses of `Obligations.MomentsComplete` that the witnesses of the statements on each family leave: a state
that meets several of them at once, for each family. -/
theorem meets_moments_complete :
    (∃ s : State, s.core.awake = true ∧ 2 ∈ s.core.sourceOrder ∧ s.core.time.ppsLast = some 5000 ∧
      ((5000 + 3 * second + s.core.ent 0x122B 0 : Nat) : Int) < (s.core.clock : Int) - s.core.entS 16 0x122C 0 ∧
      s.core.reached s.core.time.ppsFall = true) ∧
    (∃ s : State, Accepts s host (pIdx 0 9) 5 (d8 1) ∧ s.core.entBit 0x110A 0 0 = false ∧ s.core.cfg.configured 0 = true ∧
      s.core.phase = .ready ∧ s.core.time.romNext ≤ s.core.now) ∧
    (∃ s : State, s.core.latched = false ∧ s.core.reached (s.core.refl 7).liftAt = true ∧ s.core.ent 0x3147 1 = 1 ∧
      (s.core.refl 7).stale = false ∧ (s.core.refl 7).lastFresh + 10 * ms ≤ s.core.now) ∧
    (∃ s : State, s.core.searching = true ∧ 2 ≤ s.core.ent 0x3202 0 ∧ s.core.ent 0x3202 0 ≤ 4 ∧
      s.core.fe.burstAt + 5 * ms * 2 ^ (s.core.ent 0x3201 5) ≤ s.core.now) ∧
    (∃ s : State, s.core.hk.slot = some ⟨.urgent, 58, 9, 4⟩ ∧ 9 + 244 ≤ s.core.now ∧ s.core.twState 3 = 4 ∧
      s.core.twState 2 = 3 ∧ (s.core.twc 2).clocked (nineClocksOf 4 true) s.core.now = true) :=
  ⟨⟨sc [(0x1223, 1, 2)] (fun c => { c with clock := 491520000 * 9, time := { c.time with ppsLast := some 5000, ppsFall := some c.now } }),
     by decide +kernel⟩,
   ⟨st onPath,
     by unfold Accepts; decide +kernel⟩,
   ⟨sc [(0x3147, 1, 1)] (fun c => c.setRefl 7 { c.refl 7 with liftAt := some c.now }),
     by decide +kernel⟩,
   ⟨st (onPath ++ [(0x3201, 1, 1), (0x3202, 0, 3), (0x3201, 4, 5)]),
     by decide +kernel⟩,
   ⟨sc [(0x6323, 1, 4), (0x6322, 1, 3)] (fun c => { c with hk := { c.hk with slot := some ⟨.urgent, 58, 9, 4⟩ } }),
     by decide +kernel⟩⟩

/-- Meets the hypotheses of `Obligations.StepsKeepTheBook`. -/
theorem meets_steps_keep_the_book :
    ∃ s t : State, s.BookSound ∧ s.NvSound ∧ step s = .next t :=
  ⟨{ ready with pending := [.highz] }, _,
   ⟨by decide, by decide, by intro k r h; simp [ready, State.reset, Book.init] at h⟩,
   by unfold State.NvSound; decide +kernel, rfl⟩

end Sys2Proof.Tests
end

section
/-! SUPPORT. Proofs of the statements of spec/01_architecture.md: a step, the activation of a commit, and the units of the NV
write engine. -/

namespace Sys2Proof.Machine

/-- Settles O1: `step` takes the front of the queue by definition. -/
theorem stepRunsFrontCommand : Obligations.StepRunsFrontCommand := by
  intro c r s h
  unfold step
  rw [h]

/-! The units of the NV write engine (R24, R25). -/

/-- Starting the next unit chooses the unit in progress, and nothing else. -/
theorem State.kick_eq (s : State) : ∃ u, s.kick = { s with nv := { s.nv with unit := u } } := by
  unfold State.kick
  split
  · exact ⟨s.nv.unit, rfl⟩
  · exact ⟨s.nextUnit, rfl⟩

@[simp] theorem State.kick_core (s : State) : s.kick.core = s.core := by
  obtain ⟨u, h⟩ := s.kick_eq
  rw [h]

@[simp] theorem State.kick_book (s : State) : s.kick.book = s.book := by
  obtain ⟨u, h⟩ := s.kick_eq
  rw [h]

@[simp] theorem State.kick_job (s : State) : s.kick.nv.job = s.nv.job := by
  obtain ⟨u, h⟩ := s.kick_eq
  rw [h]

/-- Where neither a save nor a reset command waits on a unit, its effect is followed by the next unit only. -/
theorem State.completeUnit_eq_kick {s : State} (hs : s.unitEffect.core.supply.save = none)
    (hd : s.unitEffect.book.drainBy = none) :
    s.completeUnit = ({ s.unitEffect with nv := { s.unitEffect.nv with unit := none } }).kick := by
  simp [State.completeUnit, State.drained, hs, hd]

/-- An image page that completes leaves the job after the page that was written, whatever page the job stood at (R42). -/
theorem State.completeUnit_image_job {s : State} {k page : Nat} {b : List Byte} (hs : s.core.supply.save = none)
    (hd : s.book.drainBy = none) (hu : s.nv.unit = some (.image k page b)) :
    s.completeUnit.nv.job = s.nv.job.map (fun j => { j with page := page + 1 }) := by
  have effect : s.unitEffect = { s with nv := s.nv.writePage k page b } := by
    simp [State.unitEffect, hu, Nv.perform]
  rw [State.completeUnit_eq_kick (effect ▸ hs) (effect ▸ hd), State.kick_job, effect]
  unfold Nv.writePage Nv.setSlot
  split <;> rfl

/-- Refutes O28, by its clause on image pages: it takes the page of the unit and the page of the job as two free values and
says that the job goes on after its own page, where the model goes on after the page written. Here page 0 completes while the
job stands at page 1, and the job then stands at page 1, not 2. The engine itself starts an image unit with the job's page
(`State.nextUnit`); the statement lacks the premise `page = j.page`. -/
theorem not_unitsComplete : ¬ Obligations.UnitsComplete := by
  intro h
  let j : ImageJob := ⟨1, [0x11, 0x22], 1⟩
  let s : State := { State.reset with nv := { Nv.init with unit := some (.image 1 0 [0x11, 0x22]), job := some j } }
  obtain ⟨_, _, _, image, _⟩ := h s rfl rfl
  obtain ⟨t, ends, job, _⟩ := image 1 0 [0x11, 0x22] j rfl rfl
  have ht : s.completeUnit = t := Host.Outcome.next.inj ends
  have written : t.nv.job = some { j with page := 1 } := by
    rw [← ht, State.completeUnit_image_job (s := s) rfl rfl rfl]
    rfl
  have page : (1 : Nat) = 2 := congrArg ImageJob.page (Option.some.inj (written.symm.trans job))
  exact absurd page (by decide)

/-! The activation of a commit (R14, R318, R336). -/

/-- The commit leaves the schedule: it waits no longer, and 0x1104.05 reads 0. -/
def Core.unscheduled (c : Core) : Core := { c.setEnt 0x1104 5 0 with sched := none }

/-- The commit names an RWD entry that the mode does not allow to change (R336). -/
def Core.forbids (c : Core) (m : Sched) : Prop := c.rwdAllowed = false ∧ ∃ e, e ∈ m.writes ∧ rwdKey e.1 = true

theorem Core.forbids_iff (c : Core) (m : Sched) :
    c.forbids m ↔ (m.writes.any (fun e => rwdKey e.1) && !c.rwdAllowed) = true := by
  simp [Core.forbids, and_comm]

theorem Core.activate_of_forbids {c : Core} {m : Sched} (h : c.forbids m) :
    c.activate m = ((c.unscheduled.setEnt 0x1104 2 3).emit 40 0x0C13 (d32 m.tick ++ d32 m.owner)).each allPaths
      (fun c p => c.modPath p (fun s => { s with placed := none })) :=
  if_pos ((c.forbids_iff m).1 h)

/-- The part with the values of an allowed commit in force (R14, R262), brought from the configuration `old` to them. -/
def Core.applied (c : Core) (m : Sched) (old : Cfg) : Core :=
  ((c.withLocal m.writes).1.install (c.withLocal m.writes).2).applyConfig old

theorem Core.activate_of_not_forbids {c : Core} {m : Sched} (h : ¬ c.forbids m) :
    c.activate m = ((c.unscheduled.applied m c.cfg).setEnt 0x1104 2 0).emit 40 0x0C01
      (d32 m.tick ++ d16 m.writes.length ++ d32 m.owner ++ d16 (c.ent 0x1104 7)) :=
  if_neg (fun hc => h ((c.forbids_iff m).2 hc))

theorem Core.withLocal_of_no_held {c : Core} (h : c.heldLocal = []) (w : Tab Nat) : c.withLocal w = (c, w) := by
  simp [Core.withLocal, h]

/-- What putting values in force does to the dictionary: the last value given for a key, and every other value as it was. -/
theorem Core.install_get (c : Core) (w : Tab Nat) (k : Nat) : (c.install w).dict.get entryDefault k =
    match w.reverse.find? (fun e => e.1 = k) with
    | some e => e.2
    | none => c.dict.get entryDefault k := by
  have h : Core.Keeps (fun _ => False)
      { c with dict := w.foldl (fun (d : Tab Nat) (e : Nat × Nat) => Tab.put entryDefault d e.1 e.2) c.dict } (c.install w) :=
    Keeps.each Keeps.refl (fun _ _ _ => Keeps.modPath Keeps.refl)
  exact (h.dict k id).trans (Keeps.put_fold_get k w)

namespace Keeps
variable {F : Nat → Prop} {c d : Core}

/-- Putting values in force moves no other field that `Core.Keeps` speaks of. -/
theorem install (h : Core.Keeps (fun _ => True) c d) {w : Tab Nat} : Core.Keeps (fun _ => True) c (d.install w) := by
  unfold Core.install
  extract_lets old c1
  have h1 : Core.Keeps (fun _ => True) c c1 :=
    ⟨fun _ hk => absurd trivial hk, h.shown, h.now, h.clock, h.phase, h.ticking, h.sched, h.pend⟩
  exact each h1 (fun _ _ _ => modPath refl)

theorem withLocal (h : Core.Keeps F c d) (hF : ∀ k, footTwin k → F k) {w : Tab Nat} :
    Core.Keeps F c (d.withLocal w).1 := by
  unfold Core.withLocal
  extract_lets both c1
  have h1 : Core.Keeps F c c1 := upd h rfl rfl rfl rfl rfl rfl rfl rfl
  split
  · exact h
  · split
    · exact h1
    · exact exitStep h1 hF

/-- Beside its result and its record, an abandoned commit only takes back the ramps placed for it. -/
theorem activate_of_forbids {m : Sched} (hf : c.forbids m) :
    Core.Keeps (fun _ => False) ((c.unscheduled.setEnt 0x1104 2 3).emit 40 0x0C13 (d32 m.tick ++ d32 m.owner))
      (c.activate m) := by
  rw [Core.activate_of_forbids hf]
  exact each refl (fun _ _ _ => modPath refl)

/-- The values of an allowed commit and what follows from them leave the schedule, the pending set and time alone. -/
theorem applied {m : Sched} :
    Core.Keeps (fun _ => True) c.unscheduled (c.unscheduled.applied m c.cfg) :=
  trans (install (withLocal refl (fun _ _ => trivial))) (mono (applyConfig refl) (fun _ _ => trivial))

/-- Whatever becomes of a commit, the pending set stays and nothing is scheduled. -/
theorem activate {m : Sched} : Core.Keeps (fun _ => True) c.unscheduled (c.activate m) := by
  by_cases hf : c.forbids m
  · exact trans (emit (setEnt refl trivial)) (mono (activate_of_forbids hf) (fun _ _ => trivial))
  · rw [Core.activate_of_not_forbids hf]
    exact emit (setEnt applied trivial)

end Keeps

/-- What follows the installation of an allowed commit's values moves no STAGED entry. -/
theorem Core.activate_keeps_staged {c : Core} {m : Sched} (hf : ¬ c.forbids m) (hl : c.heldLocal = []) :
    Core.Keeps unstaged (c.unscheduled.install m.writes) (c.activate m) := by
  rw [Core.activate_of_not_forbids hf, Core.applied, Core.withLocal_of_no_held (c := c.unscheduled) hl]
  exact Keeps.emit (Keeps.setEnt (Keeps.applyConfig Keeps.refl) unstaged_key)

/-- Each STAGED entry reads the value that the commit gives it, or what it read before. -/
theorem Core.activate_ent {c : Core} {m : Sched} (hf : ¬ c.forbids m) (hl : c.heldLocal = []) {i sub : Nat}
    (hs : stagedKey (entKey i sub) = true) : (c.activate m).ent i sub =
      match m.writes.reverse.find? (fun e => e.1 = entKey i sub) with
      | some e => e.2
      | none => c.ent i sub := by
  have not_state : entKey i sub ≠ entKey 0x1104 5 := by
    intro e
    rw [e, show stagedKey (entKey 0x1104 5) = false from unstaged_key] at hs
    exact absurd hs Bool.false_ne_true
  have before : c.unscheduled.ent i sub = c.ent i sub := c.ent_setEnt_of_ne 0x1104 5 0 not_state
  calc (c.activate m).ent i sub
      = (c.unscheduled.install m.writes).ent i sub :=
        Keeps.ent (Core.activate_keeps_staged hf hl) i sub (by simp [hs])
    _ = _ := Core.install_get c.unscheduled m.writes (entKey i sub)
    _ = _ := by rw [← before]; rfl

theorem exec_commitActivation_due {s : State} {m : Sched} (hm : s.core.sched = some m) (hr : s.core.phase = .ready)
    (ht : m.tick ≤ s.core.clock) : exec .commitActivation s = .next (s.onCore (fun c => c.activate m)) := by
  show execCommitActivation s = _
  simp [execCommitActivation, hm, hr, ht]

/-- A commit that the mode forbids is abandoned whole (R336). -/
theorem commitActivation_abandoned {s : State} {m : Sched} (hf : s.core.forbids m) :
    let t := s.onCore (fun c => c.activate m)
    t.core.ent 0x1104 2 = 3 ∧ t.core.ent 0x1104 5 = 0 ∧ Presents s t 40 0x0C13 (d32 m.tick ++ d32 m.owner) ∧
      Moves (fun k => k = entKey 0x1104 2 ∨ k = entKey 0x1104 5) s t := by
  intro t
  have kept := Keeps.activate_of_forbids hf
  have read : ∀ i sub, t.core.ent i sub = if entKey i sub = entKey 0x1104 2 then 3
      else if entKey i sub = entKey 0x1104 5 then 0 else s.core.ent i sub := fun i sub => by
    rw [← Core.ent_setEnt, ← Core.ent_setEnt]
    exact Keeps.ent kept i sub id
  refine ⟨read 0x1104 2, read 0x1104 5,
    Presents.emit (d := s.core.unscheduled.setEnt 0x1104 2 3) (List.prefix_refl _) rfl kept.shown, Beside.onCore s _,
    fun i sub hk => ?_⟩
  rw [read, if_neg (fun e => hk (.inl e)), if_neg (fun e => hk (.inr e))]

/-- The state and the record of a commit that takes effect (R318). -/
theorem commitActivation_inForce {s : State} {m : Sched} (hf : ¬ s.core.forbids m) :
    let t := s.onCore (fun c => c.activate m)
    t.core.ent 0x1104 2 = 0 ∧ t.core.clock = s.core.clock ∧
      Presents s t 40 0x0C01 (d32 m.tick ++ d16 m.writes.length ++ d32 m.owner ++ d16 (s.core.ent 0x1104 7)) := by
  intro t
  have kept : Core.Keeps (fun _ => True) s.core.unscheduled (s.core.unscheduled.applied m s.core.cfg) := Keeps.applied
  have ht : t.core = _ := Core.activate_of_not_forbids hf
  generalize s.core.unscheduled.applied m s.core.cfg = d at kept ht
  refine ⟨?_, ?_, Presents.emit (d := d.setEnt 0x1104 2 0) kept.shown kept.clock ?_⟩
  · rw [ht, Core.emit_ent, Core.ent_setEnt, if_pos rfl]
  · rw [ht]
    exact kept.clock
  · exact ⟨[], (List.append_nil _).trans (congrArg Core.presented ht.symm)⟩

/-- Settles O45: a commit that is allowed installs its values in one write of the dictionary, and what follows from them
moves no STAGED entry. -/
theorem configurationInForce : Obligations.ConfigurationInForce := by
  intro m s hm hr ht forbidden
  have kept : Core.Keeps (fun _ => True) s.core.unscheduled (s.core.activate m) := Keeps.activate
  refine ⟨_, exec_commitActivation_due hm hr ht, kept.pend, kept.sched, Beside.onCore s _, commitActivation_abandoned,
    fun hf hl => ?_⟩
  obtain ⟨state, clock, record⟩ := commitActivation_inForce hf
  exact ⟨state, clock, record, fun i sub _ hs => Core.activate_ent hf hl hs⟩

end Sys2Proof.Machine
end

section
/-! SUPPORT. Proofs of the statements of spec/09_front_end.md: the Timetable and frame timing, and the Points pairs. -/

namespace Sys2Proof.Machine

/-- What a statement says of a moment that is due holds of the state its effect leaves. -/
theorem Ends.of_event {s : State} {i : Instr} {due : Core → Bool} {f : Core → Core} {q : State → Prop}
    (h : Ends i s q) (e : exec i s = s.event due f) (hd : due s.core = true) : q (s.onCore f) := by
  obtain ⟨t, ends, hq⟩ := h
  have ht : s.onCore f = t := Host.Outcome.next.inj ((e.trans (State.event_due s hd)).symm.trans ends)
  exact ht ▸ hq

theorem exec_timetableEntry (i : Fin 64) (s : State) : exec (.timetableEntry i) s =
    s.event (fun c => c.entryDue i) (fun c => c.timetableEntry i) := rfl

theorem exec_pointsChange (k : Fin 2) (s : State) : exec (.pointsChange k) s =
    s.event (fun c => c.clockReached (c.points k).changeAt || c.clockReached ((c.points k).follow.map Prod.fst))
      (fun c => c.pointsChange k) := rfl

/-- A pending change whose tick has come is due (R200). -/
theorem Ends.pointsChange {k : Fin 2} {s : State} {q : State → Prop} {x : Nat} (h : Ends (.pointsChange k) s q)
    (hx : (s.core.points k).changeAt = some x) (hc : atOrBefore x s.core.clock = true) :
    q (s.onCore (fun c => c.pointsChange k)) :=
  h.of_event (exec_pointsChange k s) (by simp [Core.clockReached, hx, hc])

/-- Refutes O51, by what it says a TIMETABLE_ENTRY may move: the states and overruns of housekeeping sequences 0 to 3, and no
other entry of the sequences. A trigger puts a run that has not begun back to pending (`Core.hkUnstart`), at the state entry
0x6210+q.05 of the sequence that the run in progress names, and a state of the model may name any number there. Here the entry
triggers sequence 0 while a run of sequence 4 waits for its slot: 0x6214.05, the fifth step of sequence 0, becomes 1. The model
itself starts runs of sequences 0 to 3 only (`Core.hkNext`); the statement lacks the premise that the run in progress is one
of them. -/
theorem not_frameTiming : ¬ Obligations.FrameTiming := by
  intro h
  let waiting : HkRun := ⟨4, [], 0, none, false⟩
  let s : State := { State.reset with core := { Core.init with
    phase := .ready
    dict := [(entKey 0x3200 0, 3), (entKey 0x3202 0, 3), (entKey 0x3210 1, 245760), (entKey 0x3211 1, 2 ^ 40),
      (entKey 0x3211 2, 0xFF * 2 ^ 32), (entKey 0x6210 1, 3)]
    fe := { FrontEnd.init with actFrom := some 0, lastStart := some 0 }
    hk := { HkSt.init with run := some waiting, slot := some ⟨.value, 0, 0, 16⟩ } } }
  have due : s.core.entryDue 0 = true := by decide +kernel
  have before : s.core.ent 0x6214 5 = 0 := by decide +kernel
  have after : (s.onCore (fun c => c.timetableEntry (0 : Fin 64))).core.ent 0x6214 5 = 1 := by decide +kernel
  obtain ⟨_, entry, _⟩ := h
  obtain ⟨_, _, _, _, untouched⟩ := (entry 0 s due).of_event (exec_timetableEntry 0 s) due
  have kept := untouched 0x6214 5 (by
    rintro (⟨_, k, _⟩ | k | (k | ⟨q, hq, k⟩) | ⟨q, hq, k⟩) <;> simp only [entKey] at k <;> omega)
  rw [after, before] at kept
  exact absurd kept (by decide)

/-- Refutes O52, by what it says of a POINTS_CHANGE: that no change is pending after it. The change brings the overload and
Points states up to date (`Core.pointsSelect`), and a branch found missing there for the first time makes a change to the
branch that remains pending (R201). Here the pair changes to branch B, whose converter is not powered and which the pair does
not yet count as missing: the change back to branch A is pending at once. The statement lacks the premise that a branch whose
converter is down, or that an overload mute holds, is already counted as missing. -/
theorem not_pointsAndCoexistence : ¬ Obligations.PointsAndCoexistence := by
  intro h
  let p : PointsSt := { PointsSt.init with pending := some 1, changeAt := some 0 }
  let s : State := { State.reset with core := { Core.init with
    phase := .ready
    dict := [(entKey 0x2803 1, 3), (entKey 0x3202 0, 3), (entKey 0x3250 1, 0), (entKey 0x3250 2, 1), (entKey 0x3250 3, 2),
      (entKey 0x3250 8, 1)]
    fe := { FrontEnd.init with points := [(0, p)] } } }
  have reached : atOrBefore 0 s.core.clock = true := by decide +kernel
  have back : ((s.core.pointsChange 0).points 0).pending = some 0 := by decide +kernel
  obtain ⟨_, change, _⟩ := h
  obtain ⟨_, idle, _⟩ := (change 0 0 1 s rfl reached rfl (by decide +kernel)).pointsChange rfl reached
  have none_pending : ((s.core.pointsChange 0).points 0).pending = none := idle
  exact absurd (back.symm.trans none_pending) (by decide)

end Sys2Proof.Machine
end
